-- ==== Sys2Proof/Word.lean ====
section
/-! DEFINITION. The word and byte types of the CORE (00_scope.md R11, R12). -/

namespace Sys2Proof

/-- A `u32`: "a 32-bit unsigned integer, the atomic unit of all mixing operations" (R17). -/
abbrev Word := BitVec 32

/-- A byte: 8 bits (R11). -/
abbrev Byte := BitVec 8

end Sys2Proof
end

