-- ==== Sys2Proof/Config.lean ====
section
/-! DEFINITION. What is fixed for the hardware: the constants of 00_scope.md R9, exactly as printed
(log entry 8), and the one parameter the spec leaves open, the placement `CORE_BASE` (20_memory.md
R62, log entry 6). No rule of the spec draws a value (R20), so there is no free value here. -/

namespace Sys2Proof.Config

/-- `MAGIC_SEED` (R9). -/
def magicSeed : Word := 0x9E3779B9#32

/-- `K1` (R9): the index factor of key A. -/
def k1 : Word := 0x517CC1B7#32

/-- `K2` (R9): the round factor of key A. -/
def k2 : Word := 0x6ED9EBA1#32

/-- `K3` (R9): the round factor of key B. -/
def k3 : Word := 0x8F1BBCDC#32

/-- `K4` (R9): the index factor of key B. -/
def k4 : Word := 0xA4D1C2EF#32

/-- The key-B seed constant, XORed with `MAGIC_SEED` (R9). -/
def keyBSeed : Word := 0xDEADBEEF#32

/-- The state-init constant (R9). -/
def stateInit : Word := 0x27D4EB2F#32

/-- `ROUNDS`: "Fixed round count: 12" (R9). -/
def rounds : Nat := 12

/-- Where the platform places the CORE's 256 bytes: a host address aligned to 256 (R62, D24). A claim
about placement is stated for every `Platform`. -/
structure Platform where
  coreBase : Nat
  aligned : coreBase % 256 = 0
deriving DecidableEq, Repr

end Sys2Proof.Config
end

