-- ==== Sys2Proof/Syntax.lean ====
section
/-! DEFINITION. The commands: one constructor per row of opcode_table.json (30_encoding.md R84). -/

namespace Sys2Proof

/-- A decoded command. No command names a register (R83): XFORM, ROTL, ROTR and ADD take ARG0 and ARG1
implicitly. -/
inductive Instr where
  /-- INIT: start a digest (43_state_folder.md R152). -/
  | init
  /-- CHAR: encode one character (41_word_encoder.md R122). `cp` is `zext_32(v[31:8])` (R83). -/
  | char (cp : Word)
  /-- FINAL: pad, absorb the last word, finalise (44_finalizer_hex.md R172). -/
  | final
  /-- XFORM: the standalone round transform (42_round_transform.md R139). -/
  | xform
  /-- ROTL: rotate left (40_primitives.md R104). -/
  | rotl
  /-- ROTR: rotate right (40_primitives.md R105). -/
  | rotr
  /-- ADD: add modulo 2^32 (40_primitives.md R106). -/
  | add
deriving DecidableEq, Repr

end Sys2Proof
end

