-- ==== Sys2Proof/WellFormed.lean ====
section
/-! DEFINITION. Which commands have an encoding: CHAR's operand is an unsigned 24-bit number
(30_encoding.md R83). A code point that is not a Unicode scalar value is a legal encoding that fails at
execution (R85), so it is well-formed here. -/

namespace Sys2Proof

/-- The command can be written to CMD: its operand fits IMM24 (R82, R83; log entry 7). -/
def Instr.wf : Instr → Bool
  | .init => true
  | .char cp => decide (cp.toNat < 2 ^ 24)
  | .final => true
  | .xform => true
  | .rotl => true
  | .rotr => true
  | .add => true

end Sys2Proof
end

