-- ==== Sys2Proof/Decode.lean ====
section
/-! DEFINITION. Decoding a command value, total on all 2^32 of them and refusing by name (30_encoding.md
R81 to R86), and the encoder from the same table. The checks run in the order of R87. -/

namespace Sys2Proof

/-- Why a command value is no command: the two decode errors of R85. -/
inductive DecodeError where
  /-- OPCODE is not in the map of R84. -/
  | illegalOpcode
  /-- A format-N command with IMM24 not zero. -/
  | reservedImm
deriving DecidableEq, Repr

/-- OPCODE, `v[7:0]` (R82). -/
def opcodeOf (v : Word) : BitVec 8 := v.extractLsb' 0 8

/-- IMM24, `v[31:8]` (R82). -/
def immOf (v : Word) : BitVec 24 := v.extractLsb' 8 24

/-- A command of format N: IMM24 must be zero (R82, R85). -/
def formatN (v : Word) (i : Instr) : Except DecodeError Instr :=
  if immOf v = 0#24 then .ok i else .error .reservedImm

/-- The decoder: the opcode map of R84, then the format's check (R87). -/
def decode (v : Word) : Except DecodeError Instr :=
  if opcodeOf v = 0x01#8 then formatN v .init
  else if opcodeOf v = 0x02#8 then .ok (.char ((immOf v).setWidth 32))
  else if opcodeOf v = 0x03#8 then formatN v .final
  else if opcodeOf v = 0x10#8 then formatN v .xform
  else if opcodeOf v = 0x11#8 then formatN v .rotl
  else if opcodeOf v = 0x12#8 then formatN v .rotr
  else if opcodeOf v = 0x13#8 then formatN v .add
  else .error .illegalOpcode

/-- The encoder: the match values of R84; CHAR is `(cp << 8) OR 0x02` (R89). -/
def encode : Instr → Word
  | .init => 0x00000001#32
  | .char cp => (cp <<< 8) ||| 0x00000002#32
  | .final => 0x00000003#32
  | .xform => 0x00000010#32
  | .rotl => 0x00000011#32
  | .rotr => 0x00000012#32
  | .add => 0x00000013#32

/-- The command that a row's bits `w` hold, the bits above `nbits` zero. A command is one 32-bit value and
the interface has no byte lanes (R81, R67), so the value itself is what the decoder reads; more than 32
significant bits is no command (log entry 9). -/
def decodeTableWord (nbits w : Nat) : Option Instr :=
  if w % 2 ^ nbits < 2 ^ 32 then
    match decode (BitVec.ofNat 32 (w % 2 ^ nbits)) with
    | .ok i => some i
    | .error _ => none
  else none

end Sys2Proof
end

