-- ==== Sys2Proof/Machine/State.lean ====
section
/-! DEFINITION. The state of the CORE (10_state.md R21), the host's accesses as plain data, the reasons a
step can be refused, and the state after reset (R43). -/

namespace Sys2Proof.Machine

/-- PHASE (10_state.md R27). The value 3 "is never held", so it has no constructor (log entry 12). -/
inductive Phase where
  /-- No digest is in progress: the phase after reset. -/
  | idle
  /-- A digest has been started by INIT and accepts CHAR and FINAL. -/
  | absorb
  /-- FINAL has finished: STATE holds the finalised state. -/
  | done
deriving DecidableEq, Repr

/-- The error codes a command can end with (60_exceptions.md R191). -/
inductive ErrCode where
  | ok
  | illegalOpcode
  | reservedImm
  | invalidChar
  | wrongPhase
deriving DecidableEq, Repr

/-- Who makes an access: the one host, or another agent, which is outside the contract (20_memory.md R74). -/
inductive Agent where
  | host
  | other
deriving DecidableEq, Repr

/-- What an access does at its offset (20_memory.md R65). -/
inductive AccessKind where
  | read
  | write (v : Word)
deriving DecidableEq, Repr

/-- An access as the platform routes it to the CORE: `off` is the offset from `CORE_BASE`, `width` the number of
bits moved. Only some of these are inside the contract (20_memory.md R64). -/
structure Access where
  agent : Agent
  width : Nat
  off : Nat
  kind : AccessKind
deriving DecidableEq, Repr

/-- One input of the CORE: an access, or the platform's reset, which happens between two accesses
(70_reset_and_hazards.md R216; log entry 11). -/
inductive Event where
  | access (a : Access)
  | reset
deriving DecidableEq, Repr

/-- The architectural state (R21), and the model's two own fields: what is still to happen to the CORE, and what
the host's reads have returned (log entries 1 and 2). -/
structure State where
  /-- ARG0 (R30). -/
  arg0 : Word
  /-- ARG1 (R30). -/
  arg1 : Word
  /-- RESULT (R31). -/
  result : Word
  /-- STATE[0] to STATE[7], the accumulator (R32). -/
  state : Vector Word 8
  /-- POS: words absorbed since INIT, modulo 2^32 (R33). -/
  pos : Word
  /-- POSM31: words absorbed since INIT, modulo 31 (R34; log entry 12). -/
  posm31 : Fin 31
  /-- ENC_BUF: the bytes of the incomplete word, the first at [23:16] (R35). -/
  encBuf : BitVec 24
  /-- ENC_CNT: how many bytes ENC_BUF holds (R35; log entry 12). -/
  encCnt : Fin 4
  /-- LAST_WORD (R36). -/
  lastWord : Word
  /-- LAST_XF (R36). -/
  lastXf : Word
  /-- PHASE (R27). -/
  phase : Phase
  /-- ERR: the code of the most recent command (R28). -/
  err : BitVec 4
  /-- STICKY: some command failed since the last INIT or reset (R29). -/
  sticky : Bool
  /-- The model's own: the inputs still to take effect, oldest first (20_memory.md R68; log entry 1). -/
  pending : List Event
  /-- The model's own: the values the host's reads returned, oldest first (70_reset_and_hazards.md R229;
  log entry 2). -/
  readValues : List Word
deriving DecidableEq, Repr

/-- The CORE has no faults: "there are no faults of the CORE itself" (60_exceptions.md R201). A failed command is a
normal step that writes ERR and STICKY. Nothing raises a fault, so the type is empty (log entry 16; safe and
unsafe do not arise). -/
inductive Fault
deriving DecidableEq, Repr

/-- Why no step is defined (60_exceptions.md R201). -/
inductive Refusal where
  /-- Raised by a dispatch arm whose command has no meaning yet. No arm raises it. Safe. -/
  | notModelled (mnemonic : String)
  /-- Raised by the host port for an access of another agent than the host (20_memory.md R74). Safe: no claim is
  made about such a run (log entry 5). -/
  | secondHost
  /-- Raised by the host port for an access that is not 32 bits wide, not at a multiple of 4, or not below 0x100
  (20_memory.md R64). Safe: no claim is made about such a run (log entry 5). -/
  | outsideContract
  /-- Raised by the step when nothing is pending: the CORE steps only on an access of the host (00_scope.md R19),
  and a run ends after the last one (70_reset_and_hazards.md R229). Safe (log entry 3). -/
  | noAccess
deriving DecidableEq, Repr

/-- The state right after reset: every element at its value in 10_state.md R43, nothing pending, nothing read. -/
def State.reset : State where
  arg0 := 0#32
  arg1 := 0#32
  result := 0#32
  state := Vector.replicate 8 0#32
  pos := 0#32
  posm31 := 0
  encBuf := 0#24
  encCnt := 0
  lastWord := 0#32
  lastXf := 0#32
  phase := .idle
  err := 0#4
  sticky := false
  pending := []
  readValues := []

end Sys2Proof.Machine
end

