-- ==== Sys2Proof/Machine/Ops.lean ====
section
/-! DEFINITION. The shared operations: rotation and addition (40_primitives.md R101 to R103), the accumulator's
slots, writing RESULT, the end of a command in success or in error (60_exceptions.md R196), and reset
(70_reset_and_hazards.md R216). An error is the CORE's whole exception mechanism: nothing is saved, there is no
vector and no return (R197, R198). -/

namespace Sys2Proof.Machine

/-! ### Rotation and addition -/

/-- Rotation left by an amount already reduced to [0, 31]; 0 is the special case, so that no shift by 32 occurs
(R101, 70_reset_and_hazards.md R222). -/
def rotlReduced (v : Word) (m : Nat) : Word :=
  if m = 0 then v else (v <<< m) ||| (v >>> (32 - m))

/-- Rotation right by an amount already reduced to [0, 31] (R102). -/
def rotrReduced (v : Word) (m : Nat) : Word :=
  if m = 0 then v else (v >>> m) ||| (v <<< (32 - m))

/-- `rotl(v, n)` for any integer `n`; `n mod 32` is the Euclidean remainder (R101, 00_scope.md R12). -/
def rotl (v : Word) (n : Int) : Word := rotlReduced v (n % 32).toNat

/-- `rotr(v, n)` for any integer `n` (R102). -/
def rotr (v : Word) (n : Int) : Word := rotrReduced v (n % 32).toNat

/-- `add32(a, b) = (a + b) mod 2^32`, the exact sum narrowed once (R103). -/
def add32 (a b : Word) : Word := BitVec.ofNat 32 (a.toNat + b.toNat)

/-! ### The accumulator file -/

/-- Reads `STATE[s]` (10_state.md R32). -/
def State.slot (t : State) (s : Fin 8) : Word := t.state.get s

/-- `STATE[s] <- v`. -/
def State.setSlot (t : State) (s : Fin 8) (v : Word) : State := { t with state := t.state.set s.val v }

/-! ### The end of a command -/

/-- PHASE as its two bits (10_state.md R27). -/
def Phase.code : Phase → BitVec 2
  | .idle => 0#2
  | .absorb => 1#2
  | .done => 2#2

/-- The value of an error code in STATUS.ERR (60_exceptions.md R191). -/
def ErrCode.code : ErrCode → BitVec 4
  | .ok => 0#4
  | .illegalOpcode => 1#4
  | .reservedImm => 2#4
  | .invalidChar => 3#4
  | .wrongPhase => 4#4

/-- `ERR <- 0`, which a command does once its checks have passed (30_encoding.md R87). STICKY stays. -/
def succeed (s : State) : State := { s with err := ErrCode.ok.code }

/-- `raise Error(code)`: "ERR <- code, STICKY <- 1 ... no other register changes" (60_exceptions.md R196). -/
def raiseError (e : ErrCode) (s : State) : State := { s with err := e.code, sticky := true }

/-- A command that is legal only in phase ABSORB: its effect there, WRONG_PHASE elsewhere (30_encoding.md R87). -/
def inAbsorb (effect : State → State) (s : State) : State :=
  if s.phase = .absorb then effect s else raiseError .wrongPhase s

/-- A standalone primitive: ERR to 0, RESULT to the value (10_state.md R31); nothing else changes. -/
def writeResult (v : Word) (s : State) : State := { succeed s with result := v }

/-! ### Reset and the host's view -/

/-- The platform's reset: every state element to its reset value (70_reset_and_hazards.md R216). What the host has
still to do and what it has read are not state elements of the CORE and stay (log entry 11). -/
def platformReset (s : State) : State :=
  { State.reset with pending := s.pending, readValues := s.readValues }

/-- The host gets a read's value (70_reset_and_hazards.md R229). -/
def recordRead (v : Word) (s : State) : State := { s with readValues := s.readValues ++ [v] }

end Sys2Proof.Machine
end

