-- ==== Sys2Proof/Machine/Operands.lean ====
section
/-! DEFINITION. Every operand form: the implicit operands of the format-N commands and the values derived from the
position counters (30_encoding.md R83, 40_primitives.md R110, 43_state_folder.md R153). CHAR's operand is the
constructor's own field. -/

namespace Sys2Proof.Machine

/-- The rotation amount of ROTL and ROTR: `ARG1[4:0]` (R110). -/
def rotationAmount (s : State) : Nat := (s.arg1.extractLsb' 0 5).toNat

/-- `slot = POS[2:0]` (R153). -/
def slotOf (pos : Word) : Fin 8 := ⟨(pos.extractLsb' 0 3).toNat, (pos.extractLsb' 0 3).isLt⟩

/-- `neighbor = (slot + 1) mod 8` (R153): slot 7's neighbor is slot 0. -/
def neighborOf (slot : Fin 8) : Fin 8 := slot + 1

/-- The fold's rotation amount, `POSM31 + 1` in [1, 31] (R153). -/
def foldRotation (s : State) : Nat := s.posm31.val + 1

/-- `POSM31 <- (POSM31 + 1) mod 31` (R153). -/
def nextPosm31 (p : Fin 31) : Fin 31 := p + 1

end Sys2Proof.Machine
end

