-- ==== Sys2Proof/Machine/RoundTransform.lean ====
section
/-! DEFINITION. round_transform (42_round_transform.md): the round keys, the 12-round transform `T` and the command
XFORM. The inverse (R142) is for claims only: the CORE has no command for it. -/

namespace Sys2Proof.Machine

/-- "A pair of Words (`keyA`, `keyB`)" (00_scope.md R17), "recomputed on demand". -/
structure RoundKeys where
  keyA : Word
  keyB : Word
deriving DecidableEq, Repr

/-- `roundKeys(idx, r)` (R136): exact integer arithmetic, reduced modulo 2^32 once. `idx` is any non-negative
integer; every use in the CORE passes a u32 (R143). -/
def roundKeys (idx r : Nat) : RoundKeys where
  keyA := BitVec.ofNat 32 (Config.magicSeed.toNat + (idx * Config.k1.toNat + r * Config.k2.toNat))
  keyB := BitVec.ofNat 32
    ((Config.magicSeed ^^^ Config.keyBSeed).toNat + (r * Config.k3.toNat + idx * Config.k4.toNat))

/-- `leftShift = (r mod 16) + 1` (R137, step 4). -/
def leftShift (r : Nat) : Nat := r % 16 + 1

/-- Steps 3 to 7 of round `r` (R137). -/
def mixRound (idx r : Nat) (w : Word) : Word :=
  let x1 := w ^^^ (roundKeys idx r).keyA
  let x2 := rotl x1 (leftShift r)
  let x3 := add32 x2 (roundKeys idx r).keyB
  let x4 := x3 ^^^ ~~~(roundKeys idx r).keyA
  rotr x4 (32 - (leftShift r : Int))

/-- `T(w, idx)`: the rounds 0 to 11 in order (R137). -/
def transform (w : Word) (idx : Nat) : Word :=
  (List.range Config.rounds).foldl (fun w r => mixRound idx r w) w

/-- Round `r` undone: rotate right, XOR `~keyA`, subtract `keyB`, rotate right, XOR `keyA` (R142, as corrected by
90_conflicts.md C7). -/
def unmixRound (idx r : Nat) (w : Word) : Word :=
  rotr ((rotr w (r + 1) ^^^ ~~~(roundKeys idx r).keyA) - (roundKeys idx r).keyB) (r + 1) ^^^ (roundKeys idx r).keyA

/-- `T^-1(w, idx)`: the rounds undone from 11 down to 0 (R142). -/
def transformInverse (w : Word) (idx : Nat) : Word :=
  (List.range Config.rounds).reverse.foldl (fun w r => unmixRound idx r w) w

/-- XFORM: `RESULT <- T(ARG0, ARG1)`, ARG1 unsigned (R139). Any phase; the digest in progress is untouched. -/
def execXform (s : State) : Host.Outcome State Fault Refusal :=
  .next (writeResult (transform s.arg0 s.arg1.toNat) s)

end Sys2Proof.Machine
end

