-- ==== Sys2Proof/Machine/StateFolder.lean ====
section
/-! DEFINITION. state_folder (43_state_folder.md): INIT_STATE, absorb_word and the command INIT. -/

namespace Sys2Proof.Machine

/-- `INIT_STATE(s) = (MAGIC_SEED + s * 0x27D4EB2F) mod 2^32` (R151). -/
def initSlot (s : Nat) : Word :=
  BitVec.ofNat 32 (Config.magicSeed.toNat + s * Config.stateInit.toNat)

/-- The eight initial slots (R151). -/
def initState : Vector Word 8 := Vector.ofFn fun s => initSlot s.val

/-- `absorb_word(w)`: transform the word at its position and fold it in (R153). -/
def absorbWord (w : Word) (s : State) : State :=
  let x := transform w s.pos.toNat
  let slot := slotOf s.pos
  let neighbor := neighborOf slot
  let s1 := s.setSlot slot (s.slot slot ^^^ x)
  let s2 := s1.setSlot neighbor (add32 (s1.slot neighbor) (rotl x (foldRotation s)))
  { s2 with
    lastWord := w
    lastXf := x
    pos := add32 s.pos 1#32
    posm31 := nextPosm31 s.posm31 }

/-- The effect of INIT on the digest in progress and on PHASE and STICKY (R152). -/
def startDigest (s : State) : State :=
  { s with
    state := initState
    pos := 0#32
    posm31 := 0
    encBuf := 0#24
    encCnt := 0
    lastWord := 0#32
    lastXf := 0#32
    phase := .absorb
    sticky := false }

/-- INIT: legal in every phase (R152). -/
def execInit (s : State) : Host.Outcome State Fault Refusal :=
  .next (startDigest (succeed s))

end Sys2Proof.Machine
end

