-- ==== Sys2Proof/Machine/WordEncoder.lean ====
section
/-! DEFINITION. word_encoder (41_word_encoder.md): scalar values, UTF-8, push_byte, flush_encoder and the command
CHAR. -/

namespace Sys2Proof.Machine

/-- `is_scalar(cp)` (R117). -/
def isScalar (cp : Word) : Bool :=
  decide (cp.toNat ≤ 0x10FFFF) && !(decide (0xD800 ≤ cp.toNat) && decide (cp.toNat ≤ 0xDFFF))

/-- A lead or continuation byte: the marker bits ORed with a field of the code point (R116). -/
def utf8Byte (marker : Byte) (cp : Word) (lo len : Nat) : Byte :=
  marker ||| (cp.extractLsb' lo len).setWidth 8

/-- `utf8(cp)`: the table of R116, bytes in the order emitted. It is used on scalar values only; on others it is
total and never reached by CHAR (log entry 13). -/
def utf8 (cp : Word) : List Byte :=
  if cp.toNat ≤ 0x7F then [utf8Byte 0x00#8 cp 0 7]
  else if cp.toNat ≤ 0x7FF then [utf8Byte 0xC0#8 cp 6 5, utf8Byte 0x80#8 cp 0 6]
  else if cp.toNat ≤ 0xFFFF then
    [utf8Byte 0xE0#8 cp 12 4, utf8Byte 0x80#8 cp 6 6, utf8Byte 0x80#8 cp 0 6]
  else
    [utf8Byte 0xF0#8 cp 18 3, utf8Byte 0x80#8 cp 12 6, utf8Byte 0x80#8 cp 6 6, utf8Byte 0x80#8 cp 0 6]

/-- `ENC_BUF[23-8k : 16-8k] <- b`: byte `k` of the incomplete word (R121, 10_state.md R35). -/
def putEncByte (buf : BitVec 24) (k : Nat) (b : Byte) : BitVec 24 :=
  (buf &&& ~~~(0xFF#24 <<< (16 - 8 * k))) ||| (b.setWidth 24 <<< (16 - 8 * k))

/-- The incomplete word is taken out of the encoder. -/
def clearEnc (s : State) : State := { s with encBuf := 0#24, encCnt := 0 }

/-- `push_byte(b)` (R121). -/
def pushByte (b : Byte) (s : State) : State :=
  if s.encCnt.val < 3 then
    { s with encBuf := putEncByte s.encBuf s.encCnt.val b, encCnt := s.encCnt + 1 }
  else absorbWord (s.encBuf ++ b) (clearEnc s)

/-- The bytes pushed one after the other (R122). -/
def pushBytes (bs : List Byte) (s : State) : State := bs.foldl (fun t b => pushByte b t) s

/-- `flush_encoder()`: the zero padding, only if a word is incomplete (R124). -/
def flushEncoder (s : State) : State :=
  if 0 < s.encCnt.val then absorbWord (s.encBuf ++ 0x00#8) (clearEnc s) else s

/-- CHAR once the phase is right: INVALID_CHAR, or ERR to 0 and the bytes pushed (R122, 30_encoding.md R87). -/
def encodeChar (cp : Word) (s : State) : State :=
  if isScalar cp then pushBytes (utf8 cp) (succeed s) else raiseError .invalidChar s

/-- CHAR: WRONG_PHASE is checked before INVALID_CHAR (R122, 60_exceptions.md R194). -/
def execChar (cp : Word) (s : State) : Host.Outcome State Fault Refusal :=
  .next (inAbsorb (encodeChar cp) s)

end Sys2Proof.Machine
end

