-- ==== Sys2Proof/Machine/Finalizer.lean ====
section
/-! DEFINITION. finalizer, hex_renderer and the command FINAL (44_finalizer_hex.md). -/

namespace Sys2Proof.Machine

/-- `finalize()`: `STATE[s] <- T(STATE[s], s +32 POS)` for every slot; element-wise, so the slots' order does not
show (R171, R175). -/
def finalize (s : State) : State :=
  { s with
    state := Vector.ofFn fun k => transform (s.slot k) (add32 (BitVec.ofNat 32 k.val) s.pos).toNat }

/-- The effect of FINAL in phase ABSORB (R172). -/
def finishDigest (s : State) : State :=
  { finalize (flushEncoder (succeed s)) with phase := .done }

/-- FINAL: pad, absorb the last word, finalise; WRONG_PHASE outside ABSORB (R172). -/
def execFinal (s : State) : Host.Outcome State Fault Refusal :=
  .next (inAbsorb finishDigest s)

/-! ### hex_renderer -/

/-- `hexc(d)`: the ASCII code of a nibble's lowercase digit (R182). -/
def hexc (d : BitVec 4) : Byte :=
  if d.toNat ≤ 9 then 0x30#8 + d.setWidth 8 else 0x61#8 + (d.setWidth 8 - 10#8)

/-- `hex8(w)`: character `j` is `hexc(w[31-4j : 28-4j])` (R183). -/
def hex8 (w : Word) : List Byte :=
  (List.range 8).map fun j => hexc (w.extractLsb' (28 - 4 * j) 4)

/-- `DIGEST(k)`: four characters of the rendering of STATE, the first in bits [31:24] (R184). -/
def digestWord (k : Fin 16) (s : State) : Word :=
  let w := s.slot ⟨k.val >>> 1, by have := k.isLt; omega⟩
  let h : BitVec 16 := if k.val % 2 = 0 then w.extractLsb' 16 16 else w.extractLsb' 0 16
  hexc (h.extractLsb' 12 4) ++ hexc (h.extractLsb' 8 4) ++ hexc (h.extractLsb' 4 4) ++ hexc (h.extractLsb' 0 4)

/-- The digest string: `hex8` of each word in slot order (R185). -/
def hexString (st : Vector Word 8) : List Byte := st.toList.flatMap hex8

end Sys2Proof.Machine
end

