-- ==== Sys2Proof/Machine/Primitives.lean ====
section
/-! DEFINITION. The commands ROTL, ROTR and ADD (40_primitives.md R104 to R106). They run in any phase and do not
touch the digest in progress. RESERVED_IMM is raised before them, by the decoder. -/

namespace Sys2Proof.Machine

/-- ROTL: `RESULT <- rotl(ARG0, ARG1[4:0])` (R104). -/
def execRotl (s : State) : Host.Outcome State Fault Refusal :=
  .next (writeResult (rotl s.arg0 (rotationAmount s)) s)

/-- ROTR: `RESULT <- rotr(ARG0, ARG1[4:0])` (R105). -/
def execRotr (s : State) : Host.Outcome State Fault Refusal :=
  .next (writeResult (rotr s.arg0 (rotationAmount s)) s)

/-- ADD: `RESULT <- add32(ARG0, ARG1)` (R106). No carry or overflow is recorded. -/
def execAdd (s : State) : Host.Outcome State Fault Refusal :=
  .next (writeResult (add32 s.arg0 s.arg1) s)

end Sys2Proof.Machine
end

