-- ==== Sys2Proof/Machine/Dispatch.lean ====
section
/-! DEFINITION. One arm per command (30_encoding.md R84). -/

namespace Sys2Proof.Machine

def exec (i : Instr) (s : State) : Host.Outcome State Fault Refusal :=
  match i with
  | .init => Sys2Proof.Machine.execInit s
  | .char cp => Sys2Proof.Machine.execChar cp s
  | .final => Sys2Proof.Machine.execFinal s
  | .xform => Sys2Proof.Machine.execXform s
  | .rotl => Sys2Proof.Machine.execRotl s
  | .rotr => Sys2Proof.Machine.execRotr s
  | .add => Sys2Proof.Machine.execAdd s

end Sys2Proof.Machine
end

