-- ==== Sys2Proof/Machine/Flags.lean ====
section
/-! DEFINITION. The status word. The CORE has no arithmetic flags (10_state.md R40); its only status bits are the
fields of STATUS (R26), and ENC shows the encoder's (R35). -/

namespace Sys2Proof.Machine

/-- `HostRead(0x04) = zext_32({STICKY, 2'b00, PHASE, ERR})` (R26). -/
def statusWord (s : State) : Word :=
  (BitVec.ofBool s.sticky ++ 0#2 ++ s.phase.code ++ s.err).setWidth 32

/-- `zext_32({ENC_CNT, ENC_BUF})` (R35). -/
def encWord (s : State) : Word :=
  (BitVec.ofNat 2 s.encCnt.val ++ s.encBuf).setWidth 32

end Sys2Proof.Machine
end

