-- ==== Sys2Proof/Machine/HostPort.lean ====
section
/-! DEFINITION. The register interface: the register map (10_state.md R22), HostRead and HostWrite (20_memory.md
R65), `execute_command` (30_encoding.md R87), the contract an access must meet (R64, R74), and the placement
CORE_BASE (R62). -/

namespace Sys2Proof.Machine

/-- The registers of the map (10_state.md R22). -/
inductive Reg where
  | cmd | status | arg0 | arg1 | result | pos | posm31 | enc | lastWord | lastXf
  | state (s : Fin 8)
  | digest (k : Fin 16)
  | reserved
deriving DecidableEq, Repr

/-- The registers from 0x28 on: STATE0 to STATE7 at 0x40 + 4s, DIGEST0 to DIGEST15 at 0x60 + 4k, and the reserved
offsets 0x28 to 0x3C and 0xA0 to 0xFC (R22). -/
def bankAt (off : Nat) : Reg :=
  if off < 0x40 then .reserved
  else if off < 0x60 then .state (Fin.ofNat 8 ((off - 0x40) / 4))
  else if off < 0xA0 then .digest (Fin.ofNat 16 ((off - 0x60) / 4))
  else .reserved

/-- The register at a byte offset (R22). -/
def regAt (off : Nat) : Reg :=
  if off = 0x00 then .cmd
  else if off = 0x04 then .status
  else if off = 0x08 then .arg0
  else if off = 0x0C then .arg1
  else if off = 0x10 then .result
  else if off = 0x14 then .pos
  else if off = 0x18 then .posm31
  else if off = 0x1C then .enc
  else if off = 0x20 then .lastWord
  else if off = 0x24 then .lastXf
  else bankAt off

/-- What a register reads as (20_memory.md R65): CMD and the reserved offsets read 0 (10_state.md R23). -/
def readReg (r : Reg) (s : State) : Word :=
  match r with
  | .cmd => 0#32
  | .status => statusWord s
  | .arg0 => s.arg0
  | .arg1 => s.arg1
  | .result => s.result
  | .pos => s.pos
  | .posm31 => BitVec.ofNat 32 s.posm31.val
  | .enc => encWord s
  | .lastWord => s.lastWord
  | .lastXf => s.lastXf
  | .state k => s.slot k
  | .digest k => digestWord k s
  | .reserved => 0#32

/-- `HostRead(off)` (R65). -/
def hostRead (off : Nat) (s : State) : Word := readReg (regAt off) s

/-- The error a decode error raises (30_encoding.md R87). -/
def decodeErrCode : DecodeError → ErrCode
  | .illegalOpcode => .illegalOpcode
  | .reservedImm => .reservedImm

/-- `execute_command(v)`: the decoder's checks, then the command's own (R87). -/
def executeCommand (v : Word) (s : State) : Host.Outcome State Fault Refusal :=
  match decode v with
  | .ok i => exec i s
  | .error e => .next (raiseError (decodeErrCode e) s)

/-- `HostWrite(off, v)`: CMD executes, ARG0 and ARG1 take the value, every other register ignores it (R65). -/
def hostWrite (off : Nat) (v : Word) (s : State) : Host.Outcome State Fault Refusal :=
  match regAt off with
  | .cmd => executeCommand v s
  | .arg0 => .next { s with arg0 := v }
  | .arg1 => .next { s with arg1 := v }
  | .status => .next s
  | .result => .next s
  | .pos => .next s
  | .posm31 => .next s
  | .enc => .next s
  | .lastWord => .next s
  | .lastXf => .next s
  | .state _ => .next s
  | .digest _ => .next s
  | .reserved => .next s

/-- The access is one the CORE defines: 32 bits wide, at a multiple of 4, below 0x100 (20_memory.md R64). -/
def Access.inContract (a : Access) : Bool :=
  decide (a.width = 32) && decide (a.off % 4 = 0) && decide (a.off < 0x100)

/-- One access takes effect, or is refused (20_memory.md R64, R66, R74; log entry 5). -/
def serveAccess (a : Access) (s : State) : Host.Outcome State Fault Refusal :=
  if a.agent ≠ .host then .refused .secondHost
  else if !a.inContract then .refused .outsideContract
  else
    match a.kind with
    | .read => .next (recordRead (hostRead a.off s) s)
    | .write v => hostWrite a.off v s

/-- One input takes effect: an access, or the platform's reset (70_reset_and_hazards.md R216, R228). -/
def serveEvent (e : Event) (s : State) : Host.Outcome State Fault Refusal :=
  match e with
  | .access a => serveAccess a s
  | .reset => .next (platformReset s)

/-- The oldest pending input takes effect; without one there is no step (00_scope.md R19, 20_memory.md R68;
log entry 3). -/
def serveNext (s : State) : Host.Outcome State Fault Refusal :=
  match s.pending with
  | [] => .refused .noAccess
  | e :: rest => serveEvent e { s with pending := rest }

/-- A 32-bit write of the host at an offset. -/
def wr (off : Nat) (v : Word) : Event := .access ⟨.host, 32, off, .write v⟩

/-- A 32-bit read of the host at an offset. -/
def rd (off : Nat) : Event := .access ⟨.host, 32, off, .read⟩

/-- The offset of an access to a host address, for a platform that places the CORE at `CORE_BASE`
(20_memory.md R62; log entry 6). Below `CORE_BASE` there is no offset: the access is not the CORE's. From
`CORE_BASE + 0x100` on, whether the platform routes an address to the CORE is left open (R64: "where the platform routes
it to the CORE"); that it gets an offset here is the model's choice (DESIGN CHOICE, log entry 6), and an access at that
offset is refused (`outsideContract`). -/
def routedOffset (p : Config.Platform) (addr : Nat) : Option Nat :=
  if p.coreBase ≤ addr then some (addr - p.coreBase) else none

end Sys2Proof.Machine
end

