-- ==== Sys2Proof/Machine/HostProgram.lean ====
section
/-! DEFINITION. What the host sends: the pseudo-instructions of 30_encoding.md R89 and R90, the host procedure HASH
with its validation (70_reset_and_hazards.md R224, R225), and the combination of a surrogate pair
(41_word_encoder.md R118). These are the host's, not the CORE's (log entry 14). -/

namespace Sys2Proof.Machine

/-- A command written to CMD (R89). -/
def command (i : Instr) : Event := wr 0x00 (encode i)

/-- `STR "<text>"`: one CHAR for each character, in order (R90). -/
def str (cs : List Word) : List Event := cs.map fun c => command (.char c)

/-- `ARGS <a>, <b>` (R90). -/
def args (a b : Word) : List Event := [wr 0x08 a, wr 0x0C b]

/-- `XFORM <w>, <i>`, `ROTL <v>, <n>`, `ROTR <v>, <n>`, `ADD <a>, <b>`: the operands, then the command (R90). -/
def withArgs (i : Instr) (a b : Word) : List Event := args a b ++ [command i]

/-- `RDDIGEST`: DIGEST0 to DIGEST15, in that order (R90). -/
def rdDigest : List Event := (List.range 16).map fun k => rd (0x60 + 4 * k)

/-- `host_validate`: neither the password nor the salt is empty (R225). -/
def hostValidate (password salt : List Word) : Bool := !password.isEmpty && !salt.isEmpty

/-- The accesses of `HASH(salt, password)` once the inputs are valid (R224). -/
def hashAccesses (password salt : List Word) : List Event :=
  [command .init] ++ str salt ++ [command (.char 0#32)] ++ str password ++ [command .final, rd 0x04] ++ rdDigest

/-- `HASH(salt, password)`: "on failure stop, issue nothing" (R224). -/
def hashProcedure (password salt : List Word) : List Event :=
  if hostValidate password salt then hashAccesses password salt else []

/-- A register's four characters, from bits [31:24] down to [7:0] (44_finalizer_hex.md R185). -/
def wordBytes (w : Word) : List Byte :=
  [w.extractLsb' 24 8, w.extractLsb' 16 8, w.extractLsb' 8 8, w.extractLsb' 0 8]

/-- What the host makes of the values HASH read: STATUS first, which must be 0x00000020, then the digest (R224). -/
def digestRead (values : List Word) : Option (List Byte) :=
  match values with
  | [] => none
  | st :: digest => if st = 0x00000020#32 then some (digest.flatMap wordBytes) else none

/-- A surrogate pair as one code point, `0x10000 + ((hi - 0xD800) << 10) + (lo - 0xDC00)` (R118). -/
def combineSurrogates (hi lo : Word) : Word :=
  0x10000#32 + ((hi - 0xD800#32) <<< 10) + (lo - 0xDC00#32)

end Sys2Proof.Machine
end

