-- ==== Sys2Proof/Machine/Reference.lean ====
section
/-! DEFINITION. The source's whole-string functions, the other side of the claims that streaming gives the same
result: `S2W` (41_word_encoder.md R120), the fold (43_state_folder.md R159), `D` (44_finalizer_hex.md R176) and
`hashPassword` (70_reset_and_hazards.md R226). No command calls them. -/

namespace Sys2Proof.Machine

/-- The UTF-8 bytes of a string of scalar values (R119). -/
def utf8String (cs : List Word) : List Byte := cs.flatMap utf8

/-- Packing, four bytes to a word, byte 0 in bits 31 to 24, zero padding on the right (R120). -/
def packBytes : List Byte → List Word
  | b0 :: b1 :: b2 :: b3 :: rest => (b0 ++ b1 ++ b2 ++ b3) :: packBytes rest
  | [b0, b1, b2] => [b0 ++ b1 ++ b2 ++ 0#8]
  | [b0, b1] => [b0 ++ b1 ++ 0#8 ++ 0#8]
  | [b0] => [b0 ++ 0#8 ++ 0#8 ++ 0#8]
  | [] => []

/-- `S2W(s)`, the source's `stringToUint32Array` (R120). -/
def s2w (cs : List Word) : List Word := packBytes (utf8String cs)

/-- One fold step at the true position `i` (R159). -/
def foldStep (i : Nat) (w : Word) (st : Vector Word 8) : Vector Word 8 :=
  let x := transform w i
  let slot : Fin 8 := Fin.ofNat 8 i
  let neighbor : Fin 8 := Fin.ofNat 8 (i % 8 + 1)
  let st1 := st.set slot.val (st.get slot ^^^ x)
  st1.set neighbor.val (add32 (st1.get neighbor) (rotl x (i % 31 + 1)))

/-- The words from position `i` on, in increasing position (R158, R159; 90_conflicts.md C1). -/
def foldFrom (i : Nat) (ws : List Word) (st : Vector Word 8) : Vector Word 8 :=
  match ws with
  | [] => st
  | w :: rest => foldFrom (i + 1) rest (foldStep i w st)

/-- The finaliser on a state after `n` words: slot `k` at index `k + n` (R176). -/
def finalState (n : Nat) (st : Vector Word 8) : Vector Word 8 :=
  Vector.ofFn fun k => transform (st.get k) (k.val + n)

/-- `D(s)` (R176). -/
def digestState (cs : List Word) : Vector Word 8 :=
  finalState (s2w cs).length (foldFrom 0 (s2w cs) initState)

/-- `hashPassword(password, salt)`: `hex8` of each word of `D(salt || U+0000 || password)` (R226). -/
def hashPassword (password salt : List Word) : List Byte :=
  hexString (digestState (salt ++ [0#32] ++ password))

end Sys2Proof.Machine
end

