-- ==== Sys2Proof/Safety.lean ====
section
/-! DEFINITION. The terms claims are stated in: the invariants of 10_state.md R42, what "unchanged" covers, runs of
commands, and the launch premises of 70_reset_and_hazards.md R230. A safe run is one that no step refuses: there are
no faults, and a failed command is a normal step (60_exceptions.md R201). -/

namespace Sys2Proof.Machine

/-! ### What stays the same -/

/-- The digest in progress is the same: STATE, POS, POSM31, ENC_BUF, ENC_CNT, LAST_WORD and LAST_XF. -/
structure SameDigest (s t : State) : Prop where
  state : t.state = s.state
  pos : t.pos = s.pos
  posm31 : t.posm31 = s.posm31
  encBuf : t.encBuf = s.encBuf
  encCnt : t.encCnt = s.encCnt
  lastWord : t.lastWord = s.lastWord
  lastXf : t.lastXf = s.lastXf

/-- The operand registers are the same: ARG0 and ARG1. -/
structure SameArgs (s t : State) : Prop where
  arg0 : t.arg0 = s.arg0
  arg1 : t.arg1 = s.arg1

/-- The host's side is the same: what it still sends and what it has read. -/
structure SameHost (s t : State) : Prop where
  pending : t.pending = s.pending
  readValues : t.readValues = s.readValues

/-- Every register of the CORE is the same, whatever the host's side. -/
structure SameCore (s t : State) : Prop where
  args : SameArgs s t
  result : t.result = s.result
  digest : SameDigest s t
  phase : t.phase = s.phase
  err : t.err = s.err
  sticky : t.sticky = s.sticky

/-! ### The encoder's bytes, and the failure common to the format-N commands -/

/-- The bytes of the incomplete word, the first pushed first: byte `k` is `ENC_BUF[23-8k : 16-8k]` for `k < ENC_CNT`
(10_state.md R35). -/
def pendingBytes (s : State) : List Byte :=
  (List.range s.encCnt.val).map fun k => s.encBuf.extractLsb' (16 - 8 * k) 8

/-- The command with this OPCODE fails RESERVED_IMM when IMM24 is not zero: ERR is 2, STICKY is set, and nothing else
changes (30_encoding.md R85, 60_exceptions.md R196). -/
def ReservedImmFails (op : BitVec 8) : Prop :=
  ∀ (v : Word) (s : State), v.extractLsb' 0 8 = op → v.extractLsb' 8 24 ≠ 0#24 →
    executeCommand v s = .next { s with err := 2#4, sticky := true }

/-- The code a command value ends with in a phase, from the tables of 60_exceptions.md R191 and 30_encoding.md R84, in
the order of R194. It is written on numbers, apart from the decoder and the meanings. -/
def specErrorCode (v : Word) (p : Phase) : BitVec 4 :=
  let op := (v.extractLsb' 0 8).toNat
  let imm := (v.extractLsb' 8 24).toNat
  if ¬ op ∈ [0x01, 0x02, 0x03, 0x10, 0x11, 0x12, 0x13] then 1#4
  else if op ≠ 0x02 ∧ imm ≠ 0 then 2#4
  else if (op = 0x02 ∨ op = 0x03) ∧ p ≠ .absorb then 4#4
  else if op = 0x02 ∧ (0x10FFFF < imm ∨ (0xD800 ≤ imm ∧ imm ≤ 0xDFFF)) then 3#4
  else 0#4

/-! ### The invariants of R42 -/

/-- Items 1, 4, 5 and 6 of R42. Item 2 holds by the type of POSM31 (log entry 12); item 3 is about a run since INIT. -/
structure Inv (s : State) : Prop where
  /-- Item 1: the bytes ENC_BUF does not hold are zero. -/
  encPadding : ∀ k : Fin 3, s.encCnt.val ≤ k.val → s.encBuf.extractLsb' (16 - 8 * k.val) 8 = 0#8
  /-- Item 4: in IDLE the digest registers hold their reset values. -/
  idleAtReset : s.phase = .idle → SameDigest State.reset s
  /-- Item 5: in DONE no byte is pending. -/
  doneFlushed : s.phase = .done → s.encCnt = 0
  /-- Item 6: ERR is never above 4. -/
  errCode : s.err.toNat ≤ 4

/-! ### Runs -/

/-- The commands executed one after the other, stopping at the first that gives no next state. -/
def runCommands (is : List Instr) (s : State) : Host.Outcome State Fault Refusal :=
  match is with
  | [] => .next s
  | i :: rest =>
    match exec i s with
    | .next t => runCommands rest t
    | .fault r => .fault r
    | .refused r => .refused r

/-- The commands of a digest after INIT: one CHAR a character, then FINAL (R176). -/
def digestCommands (cs : List Word) : List Instr := cs.map Instr.char ++ [.final]

/-! ### The launch premises of R230 -/

/-- `AfterReset`: every state element has its value of 10_state.md R43. -/
def AfterReset (s : State) : Prop := SameCore State.reset s

/-- `CleanDigestStart`: what holds right after a successful INIT. -/
structure CleanDigestStart (s : State) : Prop where
  phase : s.phase = .absorb
  sticky : s.sticky = false
  state : ∀ k : Fin 8, s.slot k = initSlot k.val
  pos : s.pos = 0#32
  posm31 : s.posm31 = 0
  encBuf : s.encBuf = 0#24
  encCnt : s.encCnt = 0
  lastWord : s.lastWord = 0#32
  lastXf : s.lastXf = 0#32

/-- `ValidDigest(s)`: PHASE is DONE, STICKY is 0, and the commands since the last successful INIT were CHAR for each
character and one FINAL. -/
structure ValidDigest (cs : List Word) (t : State) : Prop where
  phase : t.phase = .done
  sticky : t.sticky = false
  commands : ∃ s u : State, exec .init s = .next u ∧ runCommands (digestCommands cs) u = .next t

end Sys2Proof.Machine
end

