-- ==== Sys2Proof/Certificates/Slice0/Obligations.lean ====
section
/-! DEFINITION. The statements for the provers, one definition each, under the headings of the spec's files. Where the
spec marks a rule "[derived: ...]" or "[from general knowledge, not in source]", or where a clause is about the model's
own fields (log entries 1 and 2), the docstring says so. -/

open Sys2Proof Sys2Proof.Machine

/-! ### Encoding and dispatch (30_encoding.md) -/

/-- R84: the match and mask values select the commands, and CHAR's operand is `zext_32(v[31:8])` (R83). -/
def Obligations.OpcodeMapMatchesTable : Prop :=
  ∀ v : Word,
    (decode v = .ok .init ↔ v &&& 0xFFFFFFFF#32 = 0x00000001#32) ∧
    ((∃ cp, decode v = .ok (.char cp)) ↔ v &&& 0x000000FF#32 = 0x00000002#32) ∧
    (decode v = .ok .final ↔ v = 0x00000003#32) ∧
    (decode v = .ok .xform ↔ v = 0x00000010#32) ∧
    (decode v = .ok .rotl ↔ v = 0x00000011#32) ∧
    (decode v = .ok .rotr ↔ v = 0x00000012#32) ∧
    (decode v = .ok .add ↔ v = 0x00000013#32) ∧
    (∀ cp, decode v = .ok (.char cp) → cp.toNat = v.toNat / 2 ^ 8)

/-- R85: an illegal opcode fails with ILLEGAL_OPCODE, a format-N command with a non-zero IMM24 with RESERVED_IMM, and
nothing else changes; a CHAR is a legal encoding whatever its IMM24, and one that is no scalar value fails at execution
with INVALID_CHAR. -/
def Obligations.IllegalAndReservedEncodingsFail : Prop :=
  ∀ (v : Word) (s : State),
    let op := (v.extractLsb' 0 8).toNat
    let imm := (v.extractLsb' 8 24).toNat
    ((op = 0x00 ∨ (0x04 ≤ op ∧ op ≤ 0x0F) ∨ 0x14 ≤ op) →
      executeCommand v s = .next { s with err := 1#4, sticky := true }) ∧
    ((op = 0x01 ∨ op = 0x03 ∨ (0x10 ≤ op ∧ op ≤ 0x13)) → imm ≠ 0 →
      executeCommand v s = .next { s with err := 2#4, sticky := true }) ∧
    (op = 0x02 → (∃ cp, decode v = .ok (.char cp)) ∧
      (s.phase = .absorb → (0x10FFFF < imm ∨ (0xD800 ≤ imm ∧ imm ≤ 0xDFFF)) →
        executeCommand v s = .next { s with err := 3#4, sticky := true }))

/-- Decode and encode agree on every well-formed command (the encodings of R82 and R84). -/
def Obligations.DecodeEncodeRoundTrip : Prop :=
  ∀ i : Instr, i.wf = true → decode (encode i) = .ok i

/-- A command value the decoder reads is that command's encoding, so no two values mean the same command (R84, D7). -/
def Obligations.DecodedWordIsItsEncoding : Prop :=
  ∀ (v : Word) (i : Instr), decode v = .ok i → i.wf = true ∧ encode i = v

/-- The words of R91 (marked derived there) and of R84's table decode to the commands they stand for. -/
def Obligations.SpecWordsDecode : Prop :=
  decode 0x00000001#32 = .ok .init ∧ decode 0x00004102#32 = .ok (.char 0x41#32) ∧
  decode 0x00000002#32 = .ok (.char 0#32) ∧ decode 0x0000E902#32 = .ok (.char 0xE9#32) ∧
  decode 0x0020AC02#32 = .ok (.char 0x20AC#32) ∧ decode 0x01F60002#32 = .ok (.char 0x1F600#32) ∧
  decode 0x10FFFF02#32 = .ok (.char 0x10FFFF#32) ∧ decode 0x00000003#32 = .ok .final ∧
  decode 0x00000010#32 = .ok .xform ∧ decode 0x00000011#32 = .ok .rotl ∧
  decode 0x00000012#32 = .ok .rotr ∧ decode 0x00000013#32 = .ok .add ∧
  decode 0x00000101#32 = .error .reservedImm ∧ decode 0x00000000#32 = .error .illegalOpcode

/-- R87: the checks run in the order written, the first that fails ends the command, then ERR is 0 and the command
selected by OPCODE has its effect. -/
def Obligations.CommandDispatchOrder : Prop :=
  ∀ (v : Word) (s : State),
    let op := v.extractLsb' 0 8
    let imm := v.extractLsb' 8 24
    let s0 : State := { s with err := 0#4 }
    executeCommand v s =
      if op ≠ 0x01#8 ∧ op ≠ 0x02#8 ∧ op ≠ 0x03#8 ∧ op ≠ 0x10#8 ∧ op ≠ 0x11#8 ∧ op ≠ 0x12#8 ∧ op ≠ 0x13#8 then
        .next { s with err := 1#4, sticky := true }
      else if op ≠ 0x02#8 ∧ imm ≠ 0#24 then .next { s with err := 2#4, sticky := true }
      else if (op = 0x02#8 ∨ op = 0x03#8) ∧ s.phase ≠ .absorb then .next { s with err := 4#4, sticky := true }
      else if op = 0x02#8 ∧ ¬ isScalar (imm.setWidth 32) = true then .next { s with err := 3#4, sticky := true }
      else if op = 0x01#8 then .next (startDigest s0)
      else if op = 0x02#8 then .next (pushBytes (utf8 (imm.setWidth 32)) s0)
      else if op = 0x03#8 then .next { finalize (flushEncoder s0) with phase := .done }
      else if op = 0x10#8 then .next { s0 with result := transform s.arg0 s.arg1.toNat }
      else if op = 0x11#8 then .next { s0 with result := rotl s.arg0 (s.arg1.extractLsb' 0 5).toNat }
      else if op = 0x12#8 then .next { s0 with result := rotr s.arg0 (s.arg1.extractLsb' 0 5).toNat }
      else .next { s0 with result := s.arg0 + s.arg1 }

/-- R28, R191, R196: every command ends with exactly one code, the first that applies; one that fails sets STICKY and
changes no other register; a write to any other offset leaves ERR. -/
def Obligations.EveryCommandEndsWithItsCode : Prop :=
  ∀ (v : Word) (s : State),
    (∃ t, executeCommand v s = .next t ∧ t.err = specErrorCode v s.phase ∧ t.err.toNat ≤ 4 ∧
      (t.err ≠ 0#4 → t = { s with err := specErrorCode v s.phase, sticky := true })) ∧
    (∀ (off : Nat) (t : State), off ≠ 0x00 → hostWrite off v s = .next t → t.err = s.err)

/-- STICKY is cleared only by a successful INIT and by reset, and set only by a command that fails (R29's first
sentence). Over the model's events: a command is a host write to CMD. -/
def Obligations.StickySetByFailureClearedByInit : Prop :=
  ∀ (e : Event) (s t : State), serveEvent e s = .next t →
    (s.sticky = true → t.sticky = false → e = .reset ∨ e = wr 0x00 0x00000001#32) ∧
    (∀ v, e = wr 0x00 v → t.err ≠ 0#4 → t.sticky = true) ∧
    (s.sticky = false → t.sticky = true → ∃ v, e = wr 0x00 v ∧ t.err ≠ 0#4)

/-! ### The primitive commands (40_primitives.md) -/

/-- R101, R102, R103: rotation by any integer, bit by bit, and addition modulo 2^32. -/
def Obligations.RotationBitsAndAddition : Prop :=
  (∀ (v : Word) (n : Int) (j : Nat), j < 32 →
    (rotl v n).getLsbD j = v.getLsbD (((j : Int) - n % 32) % 32).toNat ∧
    (rotr v n).getLsbD j = v.getLsbD (((j : Int) + n % 32) % 32).toNat) ∧
  (∀ a b : Word, (add32 a b).toNat = (a.toNat + b.toNat) % 2 ^ 32)

/-- R104: ROTL completes in every state; bit `j` of RESULT is bit `j - ARG1[4:0]` of ARG0, ERR is 0, nothing else
changes; with a non-zero IMM24 it fails RESERVED_IMM. -/
def Obligations.RotlResultAndFrame : Prop :=
  (∀ s : State, ∃ t, exec .rotl s = .next t ∧
    (∀ j, j < 32 → t.result.getLsbD j = s.arg0.getLsbD ((j + 32 - (s.arg1.extractLsb' 0 5).toNat) % 32)) ∧
    t.err = 0#4 ∧ t.phase = s.phase ∧ t.sticky = s.sticky ∧ SameArgs s t ∧ SameDigest s t) ∧
  decode 0x00000011#32 = .ok .rotl ∧ ReservedImmFails 0x11#8

/-- R105: ROTR completes in every state; bit `j` of RESULT is bit `j + ARG1[4:0]` of ARG0, ERR is 0, nothing else
changes; with a non-zero IMM24 it fails RESERVED_IMM. -/
def Obligations.RotrResultAndFrame : Prop :=
  (∀ s : State, ∃ t, exec .rotr s = .next t ∧
    (∀ j, j < 32 → t.result.getLsbD j = s.arg0.getLsbD ((j + (s.arg1.extractLsb' 0 5).toNat) % 32)) ∧
    t.err = 0#4 ∧ t.phase = s.phase ∧ t.sticky = s.sticky ∧ SameArgs s t ∧ SameDigest s t) ∧
  decode 0x00000012#32 = .ok .rotr ∧ ReservedImmFails 0x12#8

/-- R106: ADD completes in every state; RESULT is the sum modulo 2^32, ERR is 0, nothing else changes; with a non-zero
IMM24 it fails RESERVED_IMM. -/
def Obligations.AddResultAndFrame : Prop :=
  (∀ s : State, ∃ t, exec .add s = .next t ∧
    t.result.toNat = (s.arg0.toNat + s.arg1.toNat) % 2 ^ 32 ∧
    t.err = 0#4 ∧ t.phase = s.phase ∧ t.sticky = s.sticky ∧ SameArgs s t ∧ SameDigest s t) ∧
  decode 0x00000013#32 = .ok .add ∧ ReservedImmFails 0x13#8

/-- The laws of rotation, for every integer amount (R108, marked derived in the spec). -/
def Obligations.RotationLaws : Prop :=
  ∀ (v w : Word) (n m : Int),
    rotr (rotl v n) n = v ∧ rotl (rotr v n) n = v ∧
    rotl v 0 = v ∧ rotl v 32 = v ∧ rotr v 0 = v ∧ rotr v 32 = v ∧
    rotl v n = rotl v (n % 32) ∧ rotl v n = rotr v ((32 - n % 32) % 32) ∧
    rotl (rotl v n) m = rotl v (n + m) ∧
    rotl (~~~v) n = ~~~(rotl v n) ∧ rotl (v ^^^ w) n = rotl v n ^^^ rotl w n

/-- For every integer `n` that ARG1 holds in two's complement, ROTL and ROTR rotate by `n` (R110, marked derived in the
spec). -/
def Obligations.RotationAmountIsAnyInteger : Prop :=
  ∀ (s : State) (n : Int), s.arg1 = BitVec.ofInt 32 n →
    (∃ t, exec .rotl s = .next t ∧ t.result = rotl s.arg0 n) ∧
    (∃ t, exec .rotr s = .next t ∧ t.result = rotr s.arg0 n)

/-! ### The round transform (42_round_transform.md) -/

/-- R136, R137: the twelve rounds with their keys, steps 3 to 7 in order, on the library's rotations. -/
def Obligations.TransformIsTwelveKeyedRounds : Prop :=
  ∀ (w : Word) (idx : Nat),
    transform w idx =
      (List.range 12).foldl (fun (w : Word) (r : Nat) =>
        let keyA := BitVec.ofNat 32 (0x9E3779B9 + (idx * 0x517CC1B7 + r * 0x6ED9EBA1))
        let keyB := BitVec.ofNat 32 (0x409AC756 + (r * 0x8F1BBCDC + idx * 0xA4D1C2EF))
        let leftShift := r % 16 + 1
        ((((w ^^^ keyA).rotateLeft leftShift + keyB) ^^^ ~~~keyA).rotateRight (32 - leftShift))) w

/-- R139: XFORM completes in every state; RESULT is `T(ARG0, ARG1)`, ERR is 0, nothing else changes; with a non-zero
IMM24 it fails RESERVED_IMM. -/
def Obligations.XformResultAndFrame : Prop :=
  (∀ s : State, ∃ t, exec .xform s = .next t ∧
    t.result = transform s.arg0 s.arg1.toNat ∧
    t.err = 0#4 ∧ t.phase = s.phase ∧ t.sticky = s.sticky ∧ SameArgs s t ∧ SameDigest s t) ∧
  decode 0x00000010#32 = .ok .xform ∧ ReservedImmFails 0x10#8

/-- The inverse of R142 undoes the transform and the transform undoes it, so for each index the transform is a bijection
(R141); both rules are marked derived in the spec. -/
def Obligations.TransformIsInvertible : Prop :=
  ∀ (w : Word) (idx : Nat),
    transformInverse (transform w idx) idx = w ∧ transform (transformInverse w idx) idx = w

/-- An index enters the transform only modulo 2^32, so a 32-bit index register loses nothing (R143, marked derived in
the spec; 90_conflicts.md C3). -/
def Obligations.TransformIndexModulo : Prop :=
  ∀ (w : Word) (idx : Nat), transform w idx = transform w (idx % 2 ^ 32)

/-! ### The state folder (43_state_folder.md) -/

/-- R151, R152: INIT completes in every state and phase; STATE is INIT_STATE, the digest registers are cleared, PHASE is
ABSORB, STICKY and ERR are 0; ARG0, ARG1 and RESULT are not written; with a non-zero IMM24 it fails RESERVED_IMM. -/
def Obligations.InitStartsDigest : Prop :=
  (∀ s : State, ∃ t, exec .init s = .next t ∧
    (∀ k : Fin 8, (t.slot k).toNat = (0x9E3779B9 + k.val * 0x27D4EB2F) % 2 ^ 32) ∧
    t.pos = 0#32 ∧ t.posm31 = 0 ∧ t.encBuf = 0#24 ∧ t.encCnt = 0 ∧ t.lastWord = 0#32 ∧ t.lastXf = 0#32 ∧
    t.phase = .absorb ∧ t.sticky = false ∧ t.err = 0#4 ∧ SameArgs s t ∧ t.result = s.result) ∧
  decode 0x00000001#32 = .ok .init ∧ ReservedImmFails 0x01#8

/-- R153: absorb_word XORs the transformed word into its slot, adds it rotated by `POSM31 + 1` to the next slot, records
the word and its transform, counts it in POS and POSM31, and changes nothing else. -/
def Obligations.AbsorbWordFoldsIntoTwoSlots : Prop :=
  ∀ (w : Word) (s : State),
    let x := transform w s.pos.toNat
    let slot := s.pos.toNat % 8
    let t := absorbWord w s
    (∀ k : Fin 8, t.slot k =
      if k.val = slot then s.slot k ^^^ x
      else if k.val = (slot + 1) % 8 then s.slot k + x.rotateLeft (s.posm31.val + 1)
      else s.slot k) ∧
    t.lastWord = w ∧ t.lastXf = x ∧
    t.pos.toNat = (s.pos.toNat + 1) % 2 ^ 32 ∧ t.posm31.val = (s.posm31.val + 1) % 31 ∧
    t.encBuf = s.encBuf ∧ t.encCnt = s.encCnt ∧
    SameArgs s t ∧ t.result = s.result ∧ t.phase = s.phase ∧ t.err = s.err ∧ t.sticky = s.sticky

/-! ### The word encoder (41_word_encoder.md) -/

/-- The UTF-8 table of R116, as arithmetic on the code point, and the test of R117 (both marked "from general knowledge"
in the spec). R116's three-byte row excludes 0xD800 to 0xDFFF: that `utf8` gives three bytes there too is the model's
choice (log entry 13, DESIGN CHOICE), and no command reaches it. -/
def Obligations.Utf8Table : Prop :=
  ∀ cp : Word,
    let c := cp.toNat
    (isScalar cp = true ↔ c ≤ 0x10FFFF ∧ ¬ (0xD800 ≤ c ∧ c ≤ 0xDFFF)) ∧
    (c ≤ 0x7F → (utf8 cp).map BitVec.toNat = [c]) ∧
    (0x80 ≤ c → c ≤ 0x7FF → (utf8 cp).map BitVec.toNat = [0xC0 + c / 2 ^ 6, 0x80 + c % 2 ^ 6]) ∧
    (0x800 ≤ c → c ≤ 0xFFFF → (utf8 cp).map BitVec.toNat =
      [0xE0 + c / 2 ^ 12, 0x80 + c / 2 ^ 6 % 2 ^ 6, 0x80 + c % 2 ^ 6]) ∧
    (0x10000 ≤ c → c ≤ 0x10FFFF → (utf8 cp).map BitVec.toNat =
      [0xF0 + c / 2 ^ 18, 0x80 + c / 2 ^ 12 % 2 ^ 6, 0x80 + c / 2 ^ 6 % 2 ^ 6, 0x80 + c % 2 ^ 6])

/-- UTF-8 on scalar values is a prefix code: the first character and the rest of the bytes are determined (R127's
premise, general knowledge G6). -/
def Obligations.Utf8IsPrefixCode : Prop :=
  ∀ (c d : Word) (x y : List Byte), isScalar c = true → isScalar d = true →
    utf8 c ++ x = utf8 d ++ y → c = d ∧ x = y

/-- R121: push_byte puts the byte at its place in ENC_BUF and counts it, or completes the word, clears the encoder and
absorbs the word. -/
def Obligations.PushByteFillsOrAbsorbs : Prop :=
  ∀ (b : Byte) (s : State),
    (s.encCnt.val < 3 →
      (∀ k : Fin 3, (pushByte b s).encBuf.extractLsb' (16 - 8 * k.val) 8 =
        if k.val = s.encCnt.val then b else s.encBuf.extractLsb' (16 - 8 * k.val) 8) ∧
      (pushByte b s).encCnt.val = s.encCnt.val + 1 ∧
      pushByte b s = { s with encBuf := (pushByte b s).encBuf, encCnt := (pushByte b s).encCnt }) ∧
    (s.encCnt.val = 3 → ∃ w : Word, w.extractLsb' 8 24 = s.encBuf ∧ w.extractLsb' 0 8 = b ∧
      pushByte b s = absorbWord w { s with encBuf := 0#24, encCnt := 0 })

/-- R122: in phase ABSORB, CHAR of a scalar value completes: it pushes the character's UTF-8 bytes in order and writes
nothing but the encoder's and the fold's registers and ERR; outside ABSORB it fails WRONG_PHASE, and in ABSORB with any
other operand INVALID_CHAR, changing nothing else. -/
def Obligations.CharEncodesOneCharacter : Prop :=
  ∀ (cp : Word) (s : State),
    (s.phase = .absorb → isScalar cp = true → ∃ t, exec (.char cp) s = .next t ∧
      t = (utf8 cp).foldl (fun u b => pushByte b u) { s with err := 0#4 } ∧
      t.err = 0#4 ∧ t.phase = .absorb ∧ t.sticky = s.sticky ∧ SameArgs s t ∧ t.result = s.result) ∧
    (s.phase ≠ .absorb → exec (.char cp) s = .next { s with err := 4#4, sticky := true }) ∧
    (s.phase = .absorb → isScalar cp = false → exec (.char cp) s = .next { s with err := 3#4, sticky := true }) ∧
    (cp.toNat < 2 ^ 24 → decode ((cp <<< 8) ||| 0x02#32) = .ok (.char cp))

/-- A CHAR completes at most one word: with the bytes pending before it, either they are all still pending and nothing is
folded, or the first four are absorbed as one word and the rest is pending (R123, marked derived in the spec). -/
def Obligations.CharCompletesAtMostOneWord : Prop :=
  ∀ (cp : Word) (s : State), s.phase = .absorb → isScalar cp = true → ∃ t, exec (.char cp) s = .next t ∧
    let bs := pendingBytes s ++ utf8 cp
    (bs.length < 4 → pendingBytes t = bs ∧ t.state = s.state ∧ t.pos = s.pos ∧ t.posm31 = s.posm31 ∧
      t.lastWord = s.lastWord ∧ t.lastXf = s.lastXf) ∧
    (4 ≤ bs.length → ∃ w, packBytes (bs.take 4) = [w] ∧ pendingBytes t = bs.drop 4 ∧
      t.state = (absorbWord w s).state ∧ t.pos = s.pos + 1#32 ∧ t.posm31 = s.posm31 + 1 ∧
      t.lastWord = w ∧ t.lastXf = transform w s.pos.toNat)

/-- R124: flush_encoder absorbs ENC_BUF followed by a zero byte as one word, and does nothing when no byte is pending.
Under R42 item 1, the premise of that clause, the word is the pending bytes padded with zero bytes. -/
def Obligations.FlushPadsThePendingBytes : Prop :=
  ∀ s : State,
    (s.encCnt.val = 0 → flushEncoder s = s) ∧
    (0 < s.encCnt.val → ∃ w : Word, w.extractLsb' 8 24 = s.encBuf ∧ w.extractLsb' 0 8 = 0#8 ∧
      flushEncoder s = absorbWord w { s with encBuf := 0#24, encCnt := 0 } ∧
      (Inv s → packBytes (pendingBytes s) = [w]))

/-- Two strings with the same words differ only by trailing U+0000 that fit in the last word, and such a U+0000 does not
change the words (R126 and R127, marked derived in the spec). -/
def Obligations.EncoderCollidesOnTrailingNulOnly : Prop :=
  (∀ cs ds : List Word, (∀ c ∈ cs, isScalar c = true) → (∀ d ∈ ds, isScalar d = true) → s2w cs = s2w ds →
    ∃ k, k ≤ 3 ∧ (cs = ds ++ List.replicate k 0#32 ∨ ds = cs ++ List.replicate k 0#32)) ∧
  (∀ cs : List Word, (utf8String cs).length % 4 ≠ 0 → s2w (cs ++ [0#32]) = s2w cs)

/-- A surrogate pair is one scalar value, by the formula of R118 (general knowledge G4). The combination is the host's
(log entry 14). -/
def Obligations.SurrogatePairIsScalar : Prop :=
  ∀ hi lo : Word, 0xD800 ≤ hi.toNat → hi.toNat ≤ 0xDBFF → 0xDC00 ≤ lo.toNat → lo.toNat ≤ 0xDFFF →
    (combineSurrogates hi lo).toNat = 0x10000 + (hi.toNat - 0xD800) * 2 ^ 10 + (lo.toNat - 0xDC00) ∧
    isScalar (combineSurrogates hi lo) = true

/-! ### The finalizer and the hex renderer (44_finalizer_hex.md) -/

/-- R171, R172: in phase ABSORB, FINAL completes: it flushes the encoder, then replaces slot `k` by
`T(STATE[k], k + POS)`, and sets PHASE to DONE and ERR to 0; ARG0, ARG1, RESULT and STICKY are not touched; outside
ABSORB it fails WRONG_PHASE, and with a non-zero IMM24 RESERVED_IMM. -/
def Obligations.FinalFinishesDigest : Prop :=
  (∀ s : State, s.phase = .absorb → ∃ t, exec .final s = .next t ∧
    (∀ k : Fin 8, t.slot k =
      transform ((flushEncoder s).slot k) ((k.val + (flushEncoder s).pos.toNat) % 2 ^ 32)) ∧
    t.pos = (flushEncoder s).pos ∧ t.posm31 = (flushEncoder s).posm31 ∧
    t.lastWord = (flushEncoder s).lastWord ∧ t.lastXf = (flushEncoder s).lastXf ∧
    t.encCnt = 0 ∧ (Inv s → t.encBuf = 0#24) ∧
    t.phase = .done ∧ t.err = 0#4 ∧ t.sticky = s.sticky ∧ SameArgs s t ∧ t.result = s.result) ∧
  (∀ s : State, s.phase ≠ .absorb → exec .final s = .next { s with err := 4#4, sticky := true }) ∧
  decode 0x00000003#32 = .ok .final ∧ ReservedImmFails 0x03#8

/-- INIT then FINAL, from any state: the empty input is legal and slot `k` ends as `T(INIT_STATE(k), k)` (R178's first
sentence). -/
def Obligations.EmptyInputDigest : Prop :=
  ∀ s : State, ∃ u t, exec .init s = .next u ∧ exec .final u = .next t ∧
    (∀ k : Fin 8, t.slot k = transform (BitVec.ofNat 32 (0x9E3779B9 + k.val * 0x27D4EB2F)) k.val) ∧
    t.pos = 0#32 ∧ t.phase = .done ∧ t.sticky = false ∧ t.err = 0#4 ∧ t.state = digestState []

/-- R184: byte `j` of DIGESTk is the lowercase hexadecimal digit of nibble `4(k mod 2) + j` of STATE[k / 2], the most
significant first, in every phase. -/
def Obligations.DigestRegistersRenderState : Prop :=
  ∀ (s : State) (k : Fin 16) (j : Fin 4),
    let d := ((s.state[k.val / 2]'(by omega)).extractLsb' (28 - 4 * (4 * (k.val % 2) + j.val)) 4).toNat
    ((hostRead (0x60 + 4 * k.val) s).extractLsb' (24 - 8 * j.val) 8).toNat = if d ≤ 9 then 0x30 + d else 0x61 + (d - 10)

/-- Reading DIGEST0 to DIGEST15 in order and taking the bytes from bits [31:24] down gives `hex8` of each slot: 64
characters of the alphabet 0-9a-f (R185, marked derived in the spec). -/
def Obligations.DigestRegistersGiveHexString : Prop :=
  ∀ s : State,
    ((List.range 16).flatMap fun k => wordBytes (hostRead (0x60 + 4 * k) s)) = hexString s.state ∧
    (hexString s.state).length = 64 ∧
    ∀ c ∈ hexString s.state, (0x30 ≤ c.toNat ∧ c.toNat ≤ 0x39) ∨ (0x61 ≤ c.toNat ∧ c.toNat ≤ 0x66)

/-! ### The register interface (10_state.md, 20_memory.md) -/

/-- R22, R23, R65: what every admitted offset reads as, and what a write to it does. -/
def Obligations.RegisterMapReadsAndWrites : Prop :=
  ∀ s : State,
    hostRead 0x04 s = statusWord s ∧ hostRead 0x08 s = s.arg0 ∧ hostRead 0x0C s = s.arg1 ∧
    hostRead 0x10 s = s.result ∧ hostRead 0x14 s = s.pos ∧ (hostRead 0x18 s).toNat = s.posm31.val ∧
    hostRead 0x1C s = encWord s ∧ hostRead 0x20 s = s.lastWord ∧ hostRead 0x24 s = s.lastXf ∧
    (∀ k : Fin 8, hostRead (0x40 + 4 * k.val) s = s.slot k) ∧
    (∀ k : Fin 16, hostRead (0x60 + 4 * k.val) s = digestWord k s) ∧
    (∀ off, off % 4 = 0 → off < 0x100 → off = 0x00 ∨ (0x28 ≤ off ∧ off ≤ 0x3C) ∨ 0xA0 ≤ off →
      hostRead off s = 0#32) ∧
    (∀ v, hostWrite 0x00 v s = executeCommand v s ∧ hostWrite 0x08 v s = .next { s with arg0 := v } ∧
      hostWrite 0x0C v s = .next { s with arg1 := v }) ∧
    (∀ off v, off % 4 = 0 → off < 0x100 → off ≠ 0x00 → off ≠ 0x08 → off ≠ 0x0C → hostWrite off v s = .next s)

/-- R26: the fields of STATUS, its reserved bits, ERR's legal values (R42 item 6 is the premise of that clause), and that
no register write other than a command changes them. -/
def Obligations.StatusFields : Prop :=
  ∀ s : State,
    (hostRead 0x04 s).extractLsb' 0 4 = s.err ∧
    ((hostRead 0x04 s).extractLsb' 4 2).toNat =
      (match s.phase with | .idle => 0 | .absorb => 1 | .done => 2) ∧
    (hostRead 0x04 s).extractLsb' 6 2 = 0#2 ∧
    (hostRead 0x04 s).getLsbD 8 = s.sticky ∧
    (hostRead 0x04 s).extractLsb' 9 23 = 0#23 ∧
    (Inv s → ((hostRead 0x04 s).extractLsb' 0 4).toNat ≤ 4) ∧
    (∀ (off : Nat) (v : Word) (t : State), off ≠ 0x00 → hostWrite off v s = .next t → hostRead 0x04 t = hostRead 0x04 s)

/-- R35: the fields of ENC; byte `k` of the incomplete word stands at [23-8k : 16-8k]; the bytes not held are zero, by
R42 item 1, which is the premise of that clause. -/
def Obligations.EncRegisterFields : Prop :=
  ∀ s : State,
    ((hostRead 0x1C s).extractLsb' 24 2).toNat = s.encCnt.val ∧
    (hostRead 0x1C s).extractLsb' 0 24 = s.encBuf ∧
    (hostRead 0x1C s).extractLsb' 26 6 = 0#6 ∧
    (∀ k, k < s.encCnt.val → (pendingBytes s)[k]? = some ((hostRead 0x1C s).extractLsb' (16 - 8 * k) 8)) ∧
    (Inv s → ∀ k, s.encCnt.val ≤ k → k < 3 → (hostRead 0x1C s).extractLsb' (16 - 8 * k) 8 = 0#8)

/-- R64, R74, R201: an access takes effect exactly when it is the host's, 32 bits wide, aligned and below 0x100; any other
has no step. -/
def Obligations.OnlyContractAccessesTakeEffect : Prop :=
  ∀ (a : Access) (s : State),
    ((∃ t, serveAccess a s = .next t) ↔ a.agent = .host ∧ a.width = 32 ∧ a.off % 4 = 0 ∧ a.off < 0x100) ∧
    (¬ (a.agent = .host ∧ a.width = 32 ∧ a.off % 4 = 0 ∧ a.off < 0x100) → ∃ r, serveAccess a s = .refused r)

/-- A read has no side effect on any register, and gives the host the register's value (R66). Recording the value is the
model's own (log entry 2). -/
def Obligations.ReadsHaveNoSideEffect : Prop :=
  ∀ (off : Nat) (s : State), off % 4 = 0 → off < 0x100 → ∃ t, serveEvent (rd off) s = .next t ∧
    SameCore s t ∧ t.pending = s.pending ∧ t.readValues = s.readValues ++ [hostRead off s] ∧
    ∀ off', hostRead off' t = hostRead off' s

/-- A step takes the oldest pending input and runs the command it holds; without one there is no step. The pending list
and `withFetchWord` are the model's own (log entries 1, 3 and 4). -/
def Obligations.StepRunsDecodedCommand : Prop :=
  (∀ (s : State) (rest : List Event) (v : Word) (i : Instr), s.pending = wr 0x00 v :: rest → decode v = .ok i →
    step s = exec i { s with pending := rest }) ∧
  (∀ (s : State) (rest : List Event) (v : Word) (e : DecodeError), s.pending = wr 0x00 v :: rest →
    decode v = .error e → step s = .next (raiseError (decodeErrCode e) { s with pending := rest })) ∧
  (∀ (s : State) (i : Instr), i.wf = true → step (s.withFetchWord 32 (encode i).toNat) = exec i s) ∧
  (∀ (s : State) (e : Event) (rest : List Event), s.pending = e :: rest →
    step s = serveEvent e { s with pending := rest }) ∧
  (∀ s : State, s.pending = [] → step s = .refused .noAccess)

/-! ### Reset and the rules of the whole machine (10_state.md, 70_reset_and_hazards.md) -/

/-- R43: what reset leaves, from any state; STATUS reads 0 and every DIGEST register reads "0000". -/
def Obligations.ResetValues : Prop :=
  ∀ s : State,
    let t := platformReset s
    t.arg0 = 0#32 ∧ t.arg1 = 0#32 ∧ t.result = 0#32 ∧ (∀ k : Fin 8, t.slot k = 0#32) ∧ t.pos = 0#32 ∧
    t.posm31 = 0 ∧ t.encBuf = 0#24 ∧ t.encCnt = 0 ∧ t.lastWord = 0#32 ∧ t.lastXf = 0#32 ∧ t.phase = .idle ∧
    t.err = 0#4 ∧ t.sticky = false ∧ hostRead 0x04 t = 0#32 ∧
    (∀ k : Fin 16, hostRead (0x60 + 4 * k.val) t = 0x30303030#32)

/-- The invariants of R42 hold right after reset. -/
def Obligations.ResetSatisfiesInvariants : Prop :=
  Inv State.reset ∧ AfterReset State.reset

/-- The invariants of R42 (marked derived in the spec) are kept by every step, from every state that meets them. -/
def Obligations.StepKeepsInvariants : Prop :=
  ∀ s t : State, Inv s → step s = .next t → Inv t

/-- R27: only INIT (to ABSORB), FINAL (ABSORB to DONE) and reset (to IDLE) change PHASE, which STATUS shows as 0, 1 or 2. -/
def Obligations.PhaseChangesOnlyByInitFinalReset : Prop :=
  (∀ s : State, ((hostRead 0x04 s).extractLsb' 4 2).toNat =
    (match s.phase with | .idle => 0 | .absorb => 1 | .done => 2)) ∧
  ∀ (e : Event) (s t : State), serveEvent e s = .next t → t.phase ≠ s.phase →
    (e = wr 0x00 0x00000001#32 ∧ t.phase = .absorb) ∨
    (e = wr 0x00 0x00000003#32 ∧ s.phase = .absorb ∧ t.phase = .done) ∨
    (e = .reset ∧ t.phase = .idle)

/-- Only host writes to their offsets (and reset) change ARG0 and ARG1; no command writes them (R30's first two
sentences). -/
def Obligations.OperandsChangeOnlyByHostWrites : Prop :=
  ∀ (e : Event) (s t : State), serveEvent e s = .next t →
    (t.arg0 ≠ s.arg0 → e = .reset ∨ e = wr 0x08 t.arg0) ∧
    (t.arg1 ≠ s.arg1 → e = .reset ∨ e = wr 0x0C t.arg1) ∧
    (∀ v, e = wr 0x08 v → t.arg0 = v) ∧ (∀ v, e = wr 0x0C v → t.arg1 = v)

/-- INIT, CHAR and FINAL ignore ARG0, ARG1 and RESULT: with other values there they do the same and leave those values
(R30, R31, R122, R152, R172). -/
def Obligations.DigestIgnoresOperands : Prop :=
  ∀ (i : Instr) (s t : State) (a b r : Word), (i = .init ∨ i = .final ∨ ∃ cp, i = .char cp) →
    exec i s = .next t →
    exec i { s with arg0 := a, arg1 := b, result := r } = .next { t with arg0 := a, arg1 := b, result := r }

/-- R31: RESULT is at offset 0x10, is written only by a successful XFORM, ROTL, ROTR or ADD and by reset, and a failed
command leaves it. -/
def Obligations.ResultWrittenOnlyByPrimitives : Prop :=
  ∀ (e : Event) (s t : State), serveEvent e s = .next t →
    hostRead 0x10 s = s.result ∧
    (t.result ≠ s.result → e = .reset ∨
      ((e = wr 0x00 0x00000010#32 ∨ e = wr 0x00 0x00000011#32 ∨ e = wr 0x00 0x00000012#32 ∨
        e = wr 0x00 0x00000013#32) ∧ t.err = 0#4))

/-- R32: STATE is written only by INIT, by a CHAR or FINAL in phase ABSORB, and by reset; the host reads slot `k` at
0x40 + 4k. -/
def Obligations.StateWrittenOnlyByDigestCommands : Prop :=
  ∀ (e : Event) (s t : State), serveEvent e s = .next t →
    (∀ k : Fin 8, hostRead (0x40 + 4 * k.val) s = s.slot k) ∧
    (t.state ≠ s.state → e = .reset ∨ e = wr 0x00 0x00000001#32 ∨
      (s.phase = .absorb ∧ (e = wr 0x00 0x00000003#32 ∨ ∃ v, e = wr 0x00 v ∧ v &&& 0xFF#32 = 0x02#32)))

/-- In phase DONE the digest and its rendering stay until INIT or reset, whatever else the host does (R179, marked
derived in the spec). -/
def Obligations.DoneKeepsDigest : Prop :=
  ∀ (e : Event) (s t : State), s.phase = .done → serveEvent e s = .next t →
    e ≠ .reset → e ≠ wr 0x00 0x00000001#32 →
    SameDigest s t ∧ t.phase = .done ∧ ∀ k : Fin 16, hostRead (0x60 + 4 * k.val) t = hostRead (0x60 + 4 * k.val) s

/-- A step keeps "an error code in ERR means STICKY is set" (from R28, R29 and R196). -/
def Obligations.StepKeepsErrorSticky : Prop :=
  ∀ s t : State, (s.err ≠ 0#4 → s.sticky = true) → step s = .next t → (t.err ≠ 0#4 → t.sticky = true)

/-- A step keeps "LAST_XF is the transform of LAST_WORD at the position of the last word absorbed, or no word has been
absorbed" (from R36 and R153). -/
def Obligations.StepKeepsLastTransform : Prop :=
  ∀ s t : State,
    (s.lastXf = transform s.lastWord (s.pos - 1#32).toNat ∨ (s.lastWord = 0#32 ∧ s.lastXf = 0#32)) →
    step s = .next t →
    (t.lastXf = transform t.lastWord (t.pos - 1#32).toNat ∨ (t.lastWord = 0#32 ∧ t.lastXf = 0#32))

/-- No command reads or writes the host's side: what is pending and what has been read (the model's own fields, log
entries 1 and 2). -/
def Obligations.CommandsIgnoreTheHostSide : Prop :=
  ∀ (i : Instr) (s t : State) (p : List Event) (r : List Word), exec i s = .next t →
    SameHost s t ∧ exec i { s with pending := p, readValues := r } = .next { t with pending := p, readValues := r }

/-! ### Streaming gives the source's digest -/

/-- After INIT and CHAR for each character, the complete words of the string are folded in order, POS and POSM31 count
them, LAST_WORD and LAST_XF are of the last one, and the remaining bytes are pending (R42 item 3, R125, R159, marked
derived in the spec). -/
def Obligations.StreamedCharactersFoldInOrder : Prop :=
  ∀ (cs : List Word) (s : State), (∀ c ∈ cs, isScalar c = true) →
    ∃ t, runCommands (.init :: cs.map Instr.char) s = .next t ∧
      let bs := utf8String cs
      let n := bs.length / 4
      let ws := packBytes (bs.take (4 * n))
      t.state = foldFrom 0 ws initState ∧ t.pos = BitVec.ofNat 32 n ∧ t.posm31.val = n % 31 ∧
      pendingBytes t = bs.drop (4 * n) ∧ (∀ w, ws.getLast? = some w → t.lastWord = w ∧ t.lastXf = transform w (n - 1)) ∧
      t.phase = .absorb ∧ t.err = 0#4 ∧ t.sticky = false ∧ SameArgs s t ∧ t.result = s.result

/-- For every string, INIT, CHAR for each character and FINAL leave STATE = D(s), with N = ceil(L / 4) words counted and
PHASE = DONE (R159, R173, R176, marked derived in the spec). -/
def Obligations.StreamingComputesDigest : Prop :=
  ∀ (cs : List Word) (s : State), (∀ c ∈ cs, isScalar c = true) →
    ∃ t, runCommands (.init :: digestCommands cs) s = .next t ∧
      t.state = digestState cs ∧ t.phase = .done ∧ t.sticky = false ∧ t.err = 0#4 ∧
      (s2w cs).length = ((utf8String cs).length + 3) / 4 ∧
      t.pos = BitVec.ofNat 32 (s2w cs).length ∧ t.posm31.val = (s2w cs).length % 31 ∧
      t.encCnt = 0 ∧ SameArgs s t ∧ t.result = s.result

/-- Under the launch premise `ValidDigest(s)` of R230, STATE = D(s). -/
def Obligations.ValidDigestHoldsD : Prop :=
  ∀ (cs : List Word) (t : State), ValidDigest cs t → t.state = digestState cs

/-- A slot no word reaches ends as `T(INIT_STATE(k), k + N)`, so two inputs of the same word count share it (R156, R177,
marked derived in the spec). -/
def Obligations.UntouchedSlotsDependOnCountOnly : Prop :=
  ∀ (cs : List Word) (k : Fin 8), (s2w cs).length + 1 ≤ k.val →
    (digestState cs).get k = transform (initSlot k.val) (k.val + (s2w cs).length) ∧
    ∀ ds : List Word, (s2w ds).length = (s2w cs).length → (digestState ds).get k = (digestState cs).get k

/-- The host procedure HASH, from any state: the values it reads are STATUS = 0x00000020 and the 64 characters of
`hashPassword(password, salt)` (R226, marked derived in the spec). The list of accesses is the model's own (log entries
1, 2 and 14). -/
def Obligations.HashProcedureReadsHashPassword : Prop :=
  ∀ (password salt : List Word) (s : State) (rest : List Event),
    hostValidate password salt = true → (∀ c ∈ password, isScalar c = true) → (∀ c ∈ salt, isScalar c = true) →
    s.pending = hashProcedure password salt ++ rest →
    ∃ t : State, Host.Core.run Sys2Proof.core (hashProcedure password salt).length s = .next t ∧
      t.pending = rest ∧ ∃ values, t.readValues = s.readValues ++ values ∧
        digestRead values = some (hashPassword password salt)
end

