-- ==== Sys2Proof/Laws/Decode.lean ====
section
/-! SUPPORT. What the decoder answers, said once. -/

namespace Sys2Proof

/-- `formatN` answers its command when IMM24 is zero, RESERVED_IMM otherwise. -/
theorem formatN_ok {v : Word} {i j : Instr} (h : formatN v i = .ok j) : immOf v = 0#24 ∧ j = i := by
  unfold formatN at h
  split at h
  · next h0 => exact ⟨h0, by injection h with h; exact h.symm⟩
  · cases h

theorem formatN_error {v : Word} {i : Instr} {e : DecodeError} (h : formatN v i = .error e) :
    immOf v ≠ 0#24 ∧ e = .reservedImm := by
  unfold formatN at h
  split at h
  · cases h
  · next h0 => exact ⟨h0, by injection h with h; exact h.symm⟩

/-- Every command the decoder answers, with the OPCODE and IMM24 it was read from (30_encoding.md R84). -/
theorem decode_ok_cases {v : Word} {i : Instr} (h : decode v = .ok i) :
    (opcodeOf v = 0x01#8 ∧ immOf v = 0#24 ∧ i = .init) ∨
    (opcodeOf v = 0x02#8 ∧ i = .char ((immOf v).setWidth 32)) ∨
    (opcodeOf v = 0x03#8 ∧ immOf v = 0#24 ∧ i = .final) ∨
    (opcodeOf v = 0x10#8 ∧ immOf v = 0#24 ∧ i = .xform) ∨
    (opcodeOf v = 0x11#8 ∧ immOf v = 0#24 ∧ i = .rotl) ∨
    (opcodeOf v = 0x12#8 ∧ immOf v = 0#24 ∧ i = .rotr) ∨
    (opcodeOf v = 0x13#8 ∧ immOf v = 0#24 ∧ i = .add) := by
  unfold decode at h
  split at h
  · next h1 => exact .inl ⟨h1, formatN_ok h⟩
  split at h
  · next h1 => exact .inr (.inl ⟨h1, by injection h with h; exact h.symm⟩)
  split at h
  · next h1 => exact .inr (.inr (.inl ⟨h1, formatN_ok h⟩))
  split at h
  · next h1 => exact .inr (.inr (.inr (.inl ⟨h1, formatN_ok h⟩)))
  split at h
  · next h1 => exact .inr (.inr (.inr (.inr (.inl ⟨h1, formatN_ok h⟩))))
  split at h
  · next h1 => exact .inr (.inr (.inr (.inr (.inr (.inl ⟨h1, formatN_ok h⟩)))))
  split at h
  · next h1 => exact .inr (.inr (.inr (.inr (.inr (.inr ⟨h1, formatN_ok h⟩)))))
  · cases h

/-- A word is its OPCODE and its IMM24 (30_encoding.md R82). -/
theorem word_eq_fields (v : Word) : v = immOf v ++ opcodeOf v := by
  apply BitVec.eq_of_getLsbD_eq
  intro i hi
  simp only [immOf, opcodeOf, BitVec.getLsbD_append, BitVec.getLsbD_extractLsb']
  by_cases h8 : i < 8
  · simp [h8]
  · simp only [h8, decide_false, if_false]
    rw [show 8 + (i - 8) = i by omega]
    simp [show i - 8 < 24 by omega]

end Sys2Proof
end

