-- ==== Sys2Proof/Laws/State.lean ====
section
/-! SUPPORT. One lemma per field per update of the state: what each named update leaves in each field. -/

namespace Sys2Proof.Machine

/-! ### succeed -/

@[simp] theorem succeed_arg0 (s : State) : (succeed s).arg0 = s.arg0 := rfl

@[simp] theorem succeed_arg1 (s : State) : (succeed s).arg1 = s.arg1 := rfl

@[simp] theorem succeed_result (s : State) : (succeed s).result = s.result := rfl

@[simp] theorem succeed_state (s : State) : (succeed s).state = s.state := rfl

@[simp] theorem succeed_pos (s : State) : (succeed s).pos = s.pos := rfl

@[simp] theorem succeed_posm31 (s : State) : (succeed s).posm31 = s.posm31 := rfl

@[simp] theorem succeed_encBuf (s : State) : (succeed s).encBuf = s.encBuf := rfl

@[simp] theorem succeed_encCnt (s : State) : (succeed s).encCnt = s.encCnt := rfl

@[simp] theorem succeed_lastWord (s : State) : (succeed s).lastWord = s.lastWord := rfl

@[simp] theorem succeed_lastXf (s : State) : (succeed s).lastXf = s.lastXf := rfl

@[simp] theorem succeed_phase (s : State) : (succeed s).phase = s.phase := rfl

@[simp] theorem succeed_err (s : State) : (succeed s).err = 0#4 := rfl

@[simp] theorem succeed_sticky (s : State) : (succeed s).sticky = s.sticky := rfl

@[simp] theorem succeed_pending (s : State) : (succeed s).pending = s.pending := rfl

@[simp] theorem succeed_readValues (s : State) : (succeed s).readValues = s.readValues := rfl

/-! ### raiseError -/

@[simp] theorem raiseError_arg0 (e : ErrCode) (s : State) : (raiseError e s).arg0 = s.arg0 := rfl

@[simp] theorem raiseError_arg1 (e : ErrCode) (s : State) : (raiseError e s).arg1 = s.arg1 := rfl

@[simp] theorem raiseError_result (e : ErrCode) (s : State) : (raiseError e s).result = s.result := rfl

@[simp] theorem raiseError_state (e : ErrCode) (s : State) : (raiseError e s).state = s.state := rfl

@[simp] theorem raiseError_pos (e : ErrCode) (s : State) : (raiseError e s).pos = s.pos := rfl

@[simp] theorem raiseError_posm31 (e : ErrCode) (s : State) : (raiseError e s).posm31 = s.posm31 := rfl

@[simp] theorem raiseError_encBuf (e : ErrCode) (s : State) : (raiseError e s).encBuf = s.encBuf := rfl

@[simp] theorem raiseError_encCnt (e : ErrCode) (s : State) : (raiseError e s).encCnt = s.encCnt := rfl

@[simp] theorem raiseError_lastWord (e : ErrCode) (s : State) : (raiseError e s).lastWord = s.lastWord := rfl

@[simp] theorem raiseError_lastXf (e : ErrCode) (s : State) : (raiseError e s).lastXf = s.lastXf := rfl

@[simp] theorem raiseError_phase (e : ErrCode) (s : State) : (raiseError e s).phase = s.phase := rfl

@[simp] theorem raiseError_err (e : ErrCode) (s : State) : (raiseError e s).err = e.code := rfl

@[simp] theorem raiseError_sticky (e : ErrCode) (s : State) : (raiseError e s).sticky = true := rfl

@[simp] theorem raiseError_pending (e : ErrCode) (s : State) : (raiseError e s).pending = s.pending := rfl

@[simp] theorem raiseError_readValues (e : ErrCode) (s : State) : (raiseError e s).readValues = s.readValues := rfl

/-! ### writeResult -/

@[simp] theorem writeResult_arg0 (v : Word) (s : State) : (writeResult v s).arg0 = s.arg0 := rfl

@[simp] theorem writeResult_arg1 (v : Word) (s : State) : (writeResult v s).arg1 = s.arg1 := rfl

@[simp] theorem writeResult_result (v : Word) (s : State) : (writeResult v s).result = v := rfl

@[simp] theorem writeResult_state (v : Word) (s : State) : (writeResult v s).state = s.state := rfl

@[simp] theorem writeResult_pos (v : Word) (s : State) : (writeResult v s).pos = s.pos := rfl

@[simp] theorem writeResult_posm31 (v : Word) (s : State) : (writeResult v s).posm31 = s.posm31 := rfl

@[simp] theorem writeResult_encBuf (v : Word) (s : State) : (writeResult v s).encBuf = s.encBuf := rfl

@[simp] theorem writeResult_encCnt (v : Word) (s : State) : (writeResult v s).encCnt = s.encCnt := rfl

@[simp] theorem writeResult_lastWord (v : Word) (s : State) : (writeResult v s).lastWord = s.lastWord := rfl

@[simp] theorem writeResult_lastXf (v : Word) (s : State) : (writeResult v s).lastXf = s.lastXf := rfl

@[simp] theorem writeResult_phase (v : Word) (s : State) : (writeResult v s).phase = s.phase := rfl

@[simp] theorem writeResult_err (v : Word) (s : State) : (writeResult v s).err = 0#4 := rfl

@[simp] theorem writeResult_sticky (v : Word) (s : State) : (writeResult v s).sticky = s.sticky := rfl

@[simp] theorem writeResult_pending (v : Word) (s : State) : (writeResult v s).pending = s.pending := rfl

@[simp] theorem writeResult_readValues (v : Word) (s : State) : (writeResult v s).readValues = s.readValues := rfl

/-! ### setSlot -/

@[simp] theorem setSlot_arg0 (k : Fin 8) (v : Word) (s : State) : (s.setSlot k v).arg0 = s.arg0 := rfl

@[simp] theorem setSlot_arg1 (k : Fin 8) (v : Word) (s : State) : (s.setSlot k v).arg1 = s.arg1 := rfl

@[simp] theorem setSlot_result (k : Fin 8) (v : Word) (s : State) : (s.setSlot k v).result = s.result := rfl

@[simp] theorem setSlot_state (k : Fin 8) (v : Word) (s : State) : (s.setSlot k v).state = s.state.set k.val v := rfl

@[simp] theorem setSlot_pos (k : Fin 8) (v : Word) (s : State) : (s.setSlot k v).pos = s.pos := rfl

@[simp] theorem setSlot_posm31 (k : Fin 8) (v : Word) (s : State) : (s.setSlot k v).posm31 = s.posm31 := rfl

@[simp] theorem setSlot_encBuf (k : Fin 8) (v : Word) (s : State) : (s.setSlot k v).encBuf = s.encBuf := rfl

@[simp] theorem setSlot_encCnt (k : Fin 8) (v : Word) (s : State) : (s.setSlot k v).encCnt = s.encCnt := rfl

@[simp] theorem setSlot_lastWord (k : Fin 8) (v : Word) (s : State) : (s.setSlot k v).lastWord = s.lastWord := rfl

@[simp] theorem setSlot_lastXf (k : Fin 8) (v : Word) (s : State) : (s.setSlot k v).lastXf = s.lastXf := rfl

@[simp] theorem setSlot_phase (k : Fin 8) (v : Word) (s : State) : (s.setSlot k v).phase = s.phase := rfl

@[simp] theorem setSlot_err (k : Fin 8) (v : Word) (s : State) : (s.setSlot k v).err = s.err := rfl

@[simp] theorem setSlot_sticky (k : Fin 8) (v : Word) (s : State) : (s.setSlot k v).sticky = s.sticky := rfl

@[simp] theorem setSlot_pending (k : Fin 8) (v : Word) (s : State) : (s.setSlot k v).pending = s.pending := rfl

@[simp] theorem setSlot_readValues (k : Fin 8) (v : Word) (s : State) : (s.setSlot k v).readValues = s.readValues := rfl

/-! ### recordRead -/

@[simp] theorem recordRead_arg0 (v : Word) (s : State) : (recordRead v s).arg0 = s.arg0 := rfl

@[simp] theorem recordRead_arg1 (v : Word) (s : State) : (recordRead v s).arg1 = s.arg1 := rfl

@[simp] theorem recordRead_result (v : Word) (s : State) : (recordRead v s).result = s.result := rfl

@[simp] theorem recordRead_state (v : Word) (s : State) : (recordRead v s).state = s.state := rfl

@[simp] theorem recordRead_pos (v : Word) (s : State) : (recordRead v s).pos = s.pos := rfl

@[simp] theorem recordRead_posm31 (v : Word) (s : State) : (recordRead v s).posm31 = s.posm31 := rfl

@[simp] theorem recordRead_encBuf (v : Word) (s : State) : (recordRead v s).encBuf = s.encBuf := rfl

@[simp] theorem recordRead_encCnt (v : Word) (s : State) : (recordRead v s).encCnt = s.encCnt := rfl

@[simp] theorem recordRead_lastWord (v : Word) (s : State) : (recordRead v s).lastWord = s.lastWord := rfl

@[simp] theorem recordRead_lastXf (v : Word) (s : State) : (recordRead v s).lastXf = s.lastXf := rfl

@[simp] theorem recordRead_phase (v : Word) (s : State) : (recordRead v s).phase = s.phase := rfl

@[simp] theorem recordRead_err (v : Word) (s : State) : (recordRead v s).err = s.err := rfl

@[simp] theorem recordRead_sticky (v : Word) (s : State) : (recordRead v s).sticky = s.sticky := rfl

@[simp] theorem recordRead_pending (v : Word) (s : State) : (recordRead v s).pending = s.pending := rfl

@[simp] theorem recordRead_readValues (v : Word) (s : State) : (recordRead v s).readValues = s.readValues ++ [v] := rfl

/-! ### platformReset -/

@[simp] theorem platformReset_arg0 (s : State) : (platformReset s).arg0 = 0#32 := rfl

@[simp] theorem platformReset_arg1 (s : State) : (platformReset s).arg1 = 0#32 := rfl

@[simp] theorem platformReset_result (s : State) : (platformReset s).result = 0#32 := rfl

@[simp] theorem platformReset_state (s : State) : (platformReset s).state = Vector.replicate 8 0#32 := rfl

@[simp] theorem platformReset_pos (s : State) : (platformReset s).pos = 0#32 := rfl

@[simp] theorem platformReset_posm31 (s : State) : (platformReset s).posm31 = 0 := rfl

@[simp] theorem platformReset_encBuf (s : State) : (platformReset s).encBuf = 0#24 := rfl

@[simp] theorem platformReset_encCnt (s : State) : (platformReset s).encCnt = 0 := rfl

@[simp] theorem platformReset_lastWord (s : State) : (platformReset s).lastWord = 0#32 := rfl

@[simp] theorem platformReset_lastXf (s : State) : (platformReset s).lastXf = 0#32 := rfl

@[simp] theorem platformReset_phase (s : State) : (platformReset s).phase = .idle := rfl

@[simp] theorem platformReset_err (s : State) : (platformReset s).err = 0#4 := rfl

@[simp] theorem platformReset_sticky (s : State) : (platformReset s).sticky = false := rfl

@[simp] theorem platformReset_pending (s : State) : (platformReset s).pending = s.pending := rfl

@[simp] theorem platformReset_readValues (s : State) : (platformReset s).readValues = s.readValues := rfl

/-! ### startDigest -/

@[simp] theorem startDigest_arg0 (s : State) : (startDigest s).arg0 = s.arg0 := rfl

@[simp] theorem startDigest_arg1 (s : State) : (startDigest s).arg1 = s.arg1 := rfl

@[simp] theorem startDigest_result (s : State) : (startDigest s).result = s.result := rfl

@[simp] theorem startDigest_state (s : State) : (startDigest s).state = initState := rfl

@[simp] theorem startDigest_pos (s : State) : (startDigest s).pos = 0#32 := rfl

@[simp] theorem startDigest_posm31 (s : State) : (startDigest s).posm31 = 0 := rfl

@[simp] theorem startDigest_encBuf (s : State) : (startDigest s).encBuf = 0#24 := rfl

@[simp] theorem startDigest_encCnt (s : State) : (startDigest s).encCnt = 0 := rfl

@[simp] theorem startDigest_lastWord (s : State) : (startDigest s).lastWord = 0#32 := rfl

@[simp] theorem startDigest_lastXf (s : State) : (startDigest s).lastXf = 0#32 := rfl

@[simp] theorem startDigest_phase (s : State) : (startDigest s).phase = .absorb := rfl

@[simp] theorem startDigest_err (s : State) : (startDigest s).err = s.err := rfl

@[simp] theorem startDigest_sticky (s : State) : (startDigest s).sticky = false := rfl

@[simp] theorem startDigest_pending (s : State) : (startDigest s).pending = s.pending := rfl

@[simp] theorem startDigest_readValues (s : State) : (startDigest s).readValues = s.readValues := rfl

/-! ### clearEnc -/

@[simp] theorem clearEnc_arg0 (s : State) : (clearEnc s).arg0 = s.arg0 := rfl

@[simp] theorem clearEnc_arg1 (s : State) : (clearEnc s).arg1 = s.arg1 := rfl

@[simp] theorem clearEnc_result (s : State) : (clearEnc s).result = s.result := rfl

@[simp] theorem clearEnc_state (s : State) : (clearEnc s).state = s.state := rfl

@[simp] theorem clearEnc_pos (s : State) : (clearEnc s).pos = s.pos := rfl

@[simp] theorem clearEnc_posm31 (s : State) : (clearEnc s).posm31 = s.posm31 := rfl

@[simp] theorem clearEnc_encBuf (s : State) : (clearEnc s).encBuf = 0#24 := rfl

@[simp] theorem clearEnc_encCnt (s : State) : (clearEnc s).encCnt = 0 := rfl

@[simp] theorem clearEnc_lastWord (s : State) : (clearEnc s).lastWord = s.lastWord := rfl

@[simp] theorem clearEnc_lastXf (s : State) : (clearEnc s).lastXf = s.lastXf := rfl

@[simp] theorem clearEnc_phase (s : State) : (clearEnc s).phase = s.phase := rfl

@[simp] theorem clearEnc_err (s : State) : (clearEnc s).err = s.err := rfl

@[simp] theorem clearEnc_sticky (s : State) : (clearEnc s).sticky = s.sticky := rfl

@[simp] theorem clearEnc_pending (s : State) : (clearEnc s).pending = s.pending := rfl

@[simp] theorem clearEnc_readValues (s : State) : (clearEnc s).readValues = s.readValues := rfl

/-! ### finalize -/

@[simp] theorem finalize_arg0 (s : State) : (finalize s).arg0 = s.arg0 := rfl

@[simp] theorem finalize_arg1 (s : State) : (finalize s).arg1 = s.arg1 := rfl

@[simp] theorem finalize_result (s : State) : (finalize s).result = s.result := rfl

@[simp] theorem finalize_pos (s : State) : (finalize s).pos = s.pos := rfl

@[simp] theorem finalize_posm31 (s : State) : (finalize s).posm31 = s.posm31 := rfl

@[simp] theorem finalize_encBuf (s : State) : (finalize s).encBuf = s.encBuf := rfl

@[simp] theorem finalize_encCnt (s : State) : (finalize s).encCnt = s.encCnt := rfl

@[simp] theorem finalize_lastWord (s : State) : (finalize s).lastWord = s.lastWord := rfl

@[simp] theorem finalize_lastXf (s : State) : (finalize s).lastXf = s.lastXf := rfl

@[simp] theorem finalize_phase (s : State) : (finalize s).phase = s.phase := rfl

@[simp] theorem finalize_err (s : State) : (finalize s).err = s.err := rfl

@[simp] theorem finalize_sticky (s : State) : (finalize s).sticky = s.sticky := rfl

@[simp] theorem finalize_pending (s : State) : (finalize s).pending = s.pending := rfl

@[simp] theorem finalize_readValues (s : State) : (finalize s).readValues = s.readValues := rfl

/-- Slot `k` after `finalize` depends on slot `k` and on POS only (44_finalizer_hex.md R175). -/
@[simp] theorem finalize_slot (s : State) (k : Fin 8) :
    (finalize s).slot k = transform (s.slot k) (add32 (BitVec.ofNat 32 k.val) s.pos).toNat := by
  simp [finalize, State.slot, Vector.get_eq_getElem]

end Sys2Proof.Machine
end

