-- ==== Sys2Proof/Laws/Ops.lean ====
section
/-! SUPPORT. One spec lemma per shared operation: rotation, addition, slots, operands, and how a command ends. -/

namespace Sys2Proof.Machine

/-! ### Rotation and addition -/

theorem rotlReduced_eq_rotateLeft (v : Word) {m : Nat} (h : m < 32) : rotlReduced v m = v.rotateLeft m := by
  unfold rotlReduced
  split
  · next h0 =>
    subst h0
    rw [BitVec.rotateLeft_def]
    ext i hi
    simp
  · rw [BitVec.rotateLeft_def, Nat.mod_eq_of_lt h]

theorem rotrReduced_eq_rotateRight (v : Word) {m : Nat} (h : m < 32) : rotrReduced v m = v.rotateRight m := by
  unfold rotrReduced
  split
  · next h0 =>
    subst h0
    rw [BitVec.rotateRight_def]
    ext i hi
    simp
  · rw [BitVec.rotateRight_def, Nat.mod_eq_of_lt h]

theorem emod32_toNat_lt (n : Int) : (n % 32).toNat < 32 := by omega

/-- `rotl` is the library's rotation by the Euclidean remainder (40_primitives.md R101). -/
theorem rotl_eq_rotateLeft (v : Word) (n : Int) : rotl v n = v.rotateLeft (n % 32).toNat :=
  rotlReduced_eq_rotateLeft v (emod32_toNat_lt n)

/-- `rotr` is the library's rotation by the Euclidean remainder (40_primitives.md R102). -/
theorem rotr_eq_rotateRight (v : Word) (n : Int) : rotr v n = v.rotateRight (n % 32).toNat :=
  rotrReduced_eq_rotateRight v (emod32_toNat_lt n)

/-- `add32` is the word type's own addition (40_primitives.md R103). -/
@[simp] theorem add32_eq_add (a b : Word) : add32 a b = a + b := by
  apply BitVec.eq_of_toNat_eq
  simp [add32, BitVec.toNat_add]

/-! ### Slots -/

@[simp] theorem slot_setSlot_same (s : State) (k : Fin 8) (v : Word) : (s.setSlot k v).slot k = v := by
  simp [State.slot, State.setSlot, Vector.get_eq_getElem]

theorem slot_setSlot_ne (s : State) {k j : Fin 8} (v : Word) (h : j ≠ k) :
    (s.setSlot k v).slot j = s.slot j := by
  have : k.val ≠ j.val := fun e => h (Fin.ext e.symm)
  simp [State.slot, State.setSlot, Vector.get_eq_getElem, this]

theorem slot_setSlot (s : State) (k j : Fin 8) (v : Word) :
    (s.setSlot k v).slot j = if j = k then v else s.slot j := by
  split
  · next h => subst h; simp
  · next h => exact slot_setSlot_ne s v h

/-- Two accumulators with the same slots are the same. -/
theorem state_ext {s t : State} (h : ∀ k : Fin 8, s.slot k = t.slot k) : s.state = t.state := by
  apply Vector.ext
  intro i hi
  simpa [State.slot, Vector.get_eq_getElem] using h ⟨i, hi⟩

/-! ### Operands -/

theorem slotOf_val (pos : Word) : (slotOf pos).val = pos.toNat % 8 := by
  simp [slotOf, BitVec.extractLsb'_toNat]

theorem neighborOf_val (k : Fin 8) : (neighborOf k).val = (k.val + 1) % 8 := by
  simp [neighborOf, Fin.val_add]

/-- A word's slot and its neighbor are different (43_state_folder.md R154). -/
theorem neighborOf_ne (k : Fin 8) : neighborOf k ≠ k := by
  intro h
  have := congrArg Fin.val h
  rw [neighborOf_val] at this
  omega

theorem rotationAmount_eq (s : State) : rotationAmount s = s.arg1.toNat % 32 := by
  simp [rotationAmount, BitVec.extractLsb'_toNat]

/-- The fold's rotation amount is in [1, 31] (40_primitives.md R109). -/
theorem foldRotation_range (s : State) : 1 ≤ foldRotation s ∧ foldRotation s ≤ 31 := by
  have := s.posm31.isLt
  simp only [foldRotation]
  omega

/-! ### How a command ends -/

theorem inAbsorb_of_absorb {f : State → State} {s : State} (h : s.phase = .absorb) : inAbsorb f s = f s := by
  simp [inAbsorb, h]

theorem inAbsorb_of_ne {f : State → State} {s : State} (h : s.phase ≠ .absorb) :
    inAbsorb f s = raiseError .wrongPhase s := by
  simp [inAbsorb, h]

theorem succeed_eq (s : State) : succeed s = { s with err := 0#4 } := rfl

theorem raiseError_eq (e : ErrCode) (s : State) : raiseError e s = { s with err := e.code, sticky := true } := rfl

theorem errCode_code_le (e : ErrCode) : e.code.toNat ≤ 4 := by cases e <;> decide

end Sys2Proof.Machine
end

