-- ==== Sys2Proof/Laws/Encoder.lean ====
section
/-! SUPPORT. What absorb_word, push_byte and flush_encoder do, said once: their fields, and one lemma for everything
they leave alone. -/

namespace Sys2Proof.Machine

/-- The registers no command of the digest writes through the encoder: ARG0, ARG1, RESULT, PHASE, ERR, STICKY and the
host's side. -/
structure EncoderFrame (s t : State) : Prop where
  arg0 : t.arg0 = s.arg0
  arg1 : t.arg1 = s.arg1
  result : t.result = s.result
  phase : t.phase = s.phase
  err : t.err = s.err
  sticky : t.sticky = s.sticky
  pending : t.pending = s.pending
  readValues : t.readValues = s.readValues

theorem EncoderFrame.refl (s : State) : EncoderFrame s s := ⟨rfl, rfl, rfl, rfl, rfl, rfl, rfl, rfl⟩

theorem EncoderFrame.trans {s t u : State} (h : EncoderFrame s t) (k : EncoderFrame t u) : EncoderFrame s u :=
  ⟨k.arg0.trans h.arg0, k.arg1.trans h.arg1, k.result.trans h.result, k.phase.trans h.phase, k.err.trans h.err,
    k.sticky.trans h.sticky, k.pending.trans h.pending, k.readValues.trans h.readValues⟩

/-! ### absorb_word -/

@[simp] theorem absorbWord_pos (w : Word) (s : State) : (absorbWord w s).pos = s.pos + 1#32 := by simp [absorbWord]
@[simp] theorem absorbWord_posm31 (w : Word) (s : State) : (absorbWord w s).posm31 = nextPosm31 s.posm31 := rfl
@[simp] theorem absorbWord_lastWord (w : Word) (s : State) : (absorbWord w s).lastWord = w := rfl
@[simp] theorem absorbWord_lastXf (w : Word) (s : State) : (absorbWord w s).lastXf = transform w s.pos.toNat := rfl
@[simp] theorem absorbWord_encBuf (w : Word) (s : State) : (absorbWord w s).encBuf = s.encBuf := rfl
@[simp] theorem absorbWord_encCnt (w : Word) (s : State) : (absorbWord w s).encCnt = s.encCnt := rfl

/-- What absorb_word leaves alone. -/
theorem absorbWord_frame (w : Word) (s : State) : EncoderFrame s (absorbWord w s) :=
  ⟨rfl, rfl, rfl, rfl, rfl, rfl, rfl, rfl⟩

/-! ### push_byte -/

theorem pushByte_of_lt {s : State} (b : Byte) (h : s.encCnt.val < 3) :
    pushByte b s = { s with encBuf := putEncByte s.encBuf s.encCnt.val b, encCnt := s.encCnt + 1 } := by
  simp only [pushByte, h, if_true]

theorem pushByte_of_full {s : State} (b : Byte) (h : s.encCnt.val = 3) :
    pushByte b s = absorbWord (s.encBuf ++ b) (clearEnc s) := by
  simp [pushByte, h]

/-- What push_byte leaves alone. -/
theorem pushByte_frame (b : Byte) (s : State) : EncoderFrame s (pushByte b s) := by
  unfold pushByte
  split
  · exact ⟨rfl, rfl, rfl, rfl, rfl, rfl, rfl, rfl⟩
  · exact EncoderFrame.trans (t := clearEnc s) ⟨rfl, rfl, rfl, rfl, rfl, rfl, rfl, rfl⟩ (absorbWord_frame _ _)

@[simp] theorem pushBytes_nil (s : State) : pushBytes [] s = s := rfl

@[simp] theorem pushBytes_cons (b : Byte) (bs : List Byte) (s : State) :
    pushBytes (b :: bs) s = pushBytes bs (pushByte b s) := rfl

theorem pushBytes_append (bs cs : List Byte) (s : State) :
    pushBytes (bs ++ cs) s = pushBytes cs (pushBytes bs s) := by
  simp [pushBytes, List.foldl_append]

/-- What pushing bytes leaves alone. -/
theorem pushBytes_frame (bs : List Byte) (s : State) : EncoderFrame s (pushBytes bs s) := by
  induction bs generalizing s with
  | nil => exact EncoderFrame.refl s
  | cons b bs ih => exact (pushByte_frame b s).trans (ih _)

/-! ### flush_encoder and FINAL -/

theorem flushEncoder_of_zero {s : State} (h : s.encCnt.val = 0) : flushEncoder s = s := by
  simp [flushEncoder, h]

theorem flushEncoder_of_pos {s : State} (h : 0 < s.encCnt.val) :
    flushEncoder s = absorbWord (s.encBuf ++ 0x00#8) (clearEnc s) := by
  simp only [flushEncoder, h, if_true]

/-- What flush_encoder leaves alone. -/
theorem flushEncoder_frame (s : State) : EncoderFrame s (flushEncoder s) := by
  unfold flushEncoder
  split
  · exact EncoderFrame.trans (t := clearEnc s) ⟨rfl, rfl, rfl, rfl, rfl, rfl, rfl, rfl⟩ (absorbWord_frame _ _)
  · exact EncoderFrame.refl s

@[simp] theorem flushEncoder_encCnt (s : State) : (flushEncoder s).encCnt = 0 := by
  by_cases h : 0 < s.encCnt.val
  · simp [flushEncoder_of_pos h]
  · have h0 : s.encCnt.val = 0 := by omega
    rw [flushEncoder_of_zero h0]
    exact Fin.ext h0

/-! ### UTF-8 -/

/-- A character is 1 to 4 bytes (41_word_encoder.md R116). -/
theorem utf8_length (cp : Word) : 1 ≤ (utf8 cp).length ∧ (utf8 cp).length ≤ 4 := by
  unfold utf8
  split
  · simp
  · split
    · simp
    · split <;> simp

end Sys2Proof.Machine
end

