-- ==== Sys2Proof/Laws/HostPort.lean ====
section
/-! SUPPORT. What a step can do, said once: the inversion of exec, of a write and of an access, and the step itself. -/

namespace Sys2Proof.Machine

/-- Every way a command can end (30_encoding.md R87). -/
theorem exec_cases {i : Instr} {s t : State} (h : exec i s = .next t) :
    (i = .init ∧ t = startDigest (succeed s)) ∨
    (∃ cp, i = .char cp ∧ s.phase = .absorb ∧ isScalar cp = true ∧ t = pushBytes (utf8 cp) (succeed s)) ∨
    (∃ cp, i = .char cp ∧ s.phase = .absorb ∧ isScalar cp = false ∧ t = raiseError .invalidChar s) ∨
    (i = .final ∧ s.phase = .absorb ∧ t = finishDigest s) ∨
    ((i = .final ∨ ∃ cp, i = .char cp) ∧ s.phase ≠ .absorb ∧ t = raiseError .wrongPhase s) ∨
    (i = .xform ∧ t = writeResult (transform s.arg0 s.arg1.toNat) s) ∨
    (i = .rotl ∧ t = writeResult (rotl s.arg0 (rotationAmount s)) s) ∨
    (i = .rotr ∧ t = writeResult (rotr s.arg0 (rotationAmount s)) s) ∨
    (i = .add ∧ t = writeResult (add32 s.arg0 s.arg1) s) := by
  cases i with
  | init => injection h with h; exact .inl ⟨rfl, h.symm⟩
  | char cp =>
    injection h with h
    by_cases hp : s.phase = .absorb
    · rw [inAbsorb_of_absorb hp] at h
      cases hs : isScalar cp with
      | true => exact .inr (.inl ⟨cp, rfl, hp, hs, by simpa [encodeChar, hs] using h.symm⟩)
      | false => exact .inr (.inr (.inl ⟨cp, rfl, hp, hs, by simpa [encodeChar, hs] using h.symm⟩))
    · rw [inAbsorb_of_ne hp] at h
      exact .inr (.inr (.inr (.inr (.inl ⟨.inr ⟨cp, rfl⟩, hp, h.symm⟩))))
  | final =>
    injection h with h
    by_cases hp : s.phase = .absorb
    · rw [inAbsorb_of_absorb hp] at h
      exact .inr (.inr (.inr (.inl ⟨rfl, hp, h.symm⟩)))
    · rw [inAbsorb_of_ne hp] at h
      exact .inr (.inr (.inr (.inr (.inl ⟨.inl rfl, hp, h.symm⟩))))
  | xform => injection h with h; exact .inr (.inr (.inr (.inr (.inr (.inl ⟨rfl, h.symm⟩)))))
  | rotl => injection h with h; exact .inr (.inr (.inr (.inr (.inr (.inr (.inl ⟨rfl, h.symm⟩))))))
  | rotr => injection h with h; exact .inr (.inr (.inr (.inr (.inr (.inr (.inr (.inl ⟨rfl, h.symm⟩)))))))
  | add => injection h with h; exact .inr (.inr (.inr (.inr (.inr (.inr (.inr (.inr ⟨rfl, h.symm⟩)))))))

/-- Every way a write to CMD can end (30_encoding.md R87). -/
theorem executeCommand_cases {v : Word} {s t : State} (h : executeCommand v s = .next t) :
    (∃ i, decode v = .ok i ∧ exec i s = .next t) ∨
    (∃ e, decode v = .error e ∧ t = raiseError (decodeErrCode e) s) := by
  unfold executeCommand at h
  split at h
  · next i hi => exact .inl ⟨i, hi, h⟩
  · next e he => injection h with h; exact .inr ⟨e, he, h.symm⟩

/-- Every way a host write can end (20_memory.md R65). -/
theorem hostWrite_cases {off : Nat} {v : Word} {s t : State} (h : hostWrite off v s = .next t) :
    (regAt off = .cmd ∧ executeCommand v s = .next t) ∨
    (regAt off = .arg0 ∧ t = { s with arg0 := v }) ∨
    (regAt off = .arg1 ∧ t = { s with arg1 := v }) ∨
    (regAt off ≠ .cmd ∧ regAt off ≠ .arg0 ∧ regAt off ≠ .arg1 ∧ t = s) := by
  unfold hostWrite at h
  split at h <;> rename_i hr
  · exact .inl ⟨hr, h⟩
  · injection h with h; exact .inr (.inl ⟨hr, h.symm⟩)
  · injection h with h; exact .inr (.inr (.inl ⟨hr, h.symm⟩))
  all_goals
    injection h with h
    exact .inr (.inr (.inr ⟨by simp [hr], by simp [hr], by simp [hr], h.symm⟩))

/-- An access that takes effect is the host's and inside the contract; it is a read or a write (20_memory.md R64,
R66). -/
theorem serveAccess_cases {a : Access} {s t : State} (h : serveAccess a s = .next t) :
    a.agent = .host ∧ a.inContract = true ∧
      ((a.kind = .read ∧ t = recordRead (hostRead a.off s) s) ∨
        ∃ v, a.kind = .write v ∧ hostWrite a.off v s = .next t) := by
  unfold serveAccess at h
  split at h
  · cases h
  split at h
  · cases h
  next ha hc =>
  refine ⟨by simpa using ha, by simpa using hc, ?_⟩
  split at h
  · next hk => injection h with h; exact .inl ⟨hk, h.symm⟩
  · next v hk => exact .inr ⟨v, hk, h⟩

/-- An input that takes effect is an access or the platform's reset (70_reset_and_hazards.md R228). -/
theorem serveEvent_cases {e : Event} {s t : State} (h : serveEvent e s = .next t) :
    (∃ a, e = .access a ∧ serveAccess a s = .next t) ∨ (e = .reset ∧ t = platformReset s) := by
  cases e with
  | access a => exact .inl ⟨a, rfl, h⟩
  | reset => injection h with h; exact .inr ⟨rfl, h.symm⟩

/-- A step takes the oldest pending input. -/
theorem step_cases {s t : State} (h : step s = .next t) :
    ∃ e rest, s.pending = e :: rest ∧ serveEvent e { s with pending := rest } = .next t := by
  unfold step serveNext at h
  split at h
  · cases h
  · next e rest hp => exact ⟨e, rest, hp, h⟩

/-! ### The register map -/

/-- From 0x28 on there is no register the host can write (10_state.md R22). -/
theorem bankAt_not_written (off : Nat) : bankAt off ≠ .cmd ∧ bankAt off ≠ .arg0 ∧ bankAt off ≠ .arg1 := by
  unfold bankAt
  split_ifs <;> simp

/-- Only offset 0x00 is CMD (10_state.md R22). -/
theorem regAt_cmd {off : Nat} : regAt off = .cmd ↔ off = 0x00 := by
  constructor
  · intro h
    unfold regAt at h
    split_ifs at h
    · assumption
    · exact absurd h (bankAt_not_written off).1
  · rintro rfl
    rfl

/-- Only offset 0x08 is ARG0 (10_state.md R22). -/
theorem regAt_arg0 {off : Nat} : regAt off = .arg0 ↔ off = 0x08 := by
  constructor
  · intro h
    unfold regAt at h
    split_ifs at h
    · assumption
    · exact absurd h (bankAt_not_written off).2.1
  · rintro rfl
    rfl

/-- Only offset 0x0C is ARG1 (10_state.md R22). -/
theorem regAt_arg1 {off : Nat} : regAt off = .arg1 ↔ off = 0x0C := by
  constructor
  · intro h
    unfold regAt at h
    split_ifs at h
    · assumption
    · exact absurd h (bankAt_not_written off).2.2
  · rintro rfl
    rfl

/-- STATEk is at 0x40 + 4k (10_state.md R22). -/
theorem regAt_state (k : Fin 8) : regAt (0x40 + 4 * k.val) = .state k := by
  revert k; decide

/-- DIGESTk is at 0x60 + 4k (10_state.md R22). -/
theorem regAt_digest (k : Fin 16) : regAt (0x60 + 4 * k.val) = .digest k := by
  revert k; decide

/-! ### Placement -/

/-- An access to `CORE_BASE + off` is the CORE access at `off`, for every placement (20_memory.md R62). -/
theorem routedOffset_base_add (p : Config.Platform) (off : Nat) :
    routedOffset p (p.coreBase + off) = some off := by
  simp [routedOffset]

end Sys2Proof.Machine
end

