-- ==== Sys2Proof/Laws/PerInstr.lean ====
section
/-! SUPPORT. Families of statements with one lemma per constructor of `Instr`. TableRow: a well-formed command's word
matches its own row of opcode_table.json, its mask and its match value. -/

namespace Sys2Proof.Laws.TableRow

/-- The row's mask (30_encoding.md R84, opcode_table.json). -/
def mask : Instr → Word
  | .init => 0xFFFFFFFF#32
  | .char _ => 0x000000FF#32
  | .final => 0xFFFFFFFF#32
  | .xform => 0xFFFFFFFF#32
  | .rotl => 0xFFFFFFFF#32
  | .rotr => 0xFFFFFFFF#32
  | .add => 0xFFFFFFFF#32

/-- The row's match value (30_encoding.md R84, opcode_table.json). -/
def pattern : Instr → Word
  | .init => 0x00000001#32
  | .char _ => 0x00000002#32
  | .final => 0x00000003#32
  | .xform => 0x00000010#32
  | .rotl => 0x00000011#32
  | .rotr => 0x00000012#32
  | .add => 0x00000013#32

/-- The command's word is a word of its row. -/
def Statement (i : Instr) : Prop := encode i &&& mask i = pattern i

theorem init : Statement .init := by unfold Statement; decide

theorem char (cp : Word) : Statement (.char cp) := by
  unfold Statement encode mask pattern
  apply BitVec.eq_of_getLsbD_eq
  intro i hi
  interval_cases i <;> simp

theorem final : Statement .final := by unfold Statement; decide

theorem xform : Statement .xform := by unfold Statement; decide

theorem rotl : Statement .rotl := by unfold Statement; decide

theorem rotr : Statement .rotr := by unfold Statement; decide

theorem add : Statement .add := by unfold Statement; decide

end Sys2Proof.Laws.TableRow
end

