-- ==== Sys2Proof/Tests/Slice0.lean ====
section
/-! SUPPORT. The model's own tests: the WellFormed smoke test, words written out from the spec's encodings, a few of the
spec's worked values (95_test_vectors.md), and one witness for the hypotheses of each statement in
Certificates/Slice0/Obligations.lean that has some. -/

namespace Sys2Proof.Tests

open Sys2Proof.Machine

/-! ### Helpers -/

/-- The outcome is a next state that meets the check. -/
def nextIs (o : Host.Outcome State Fault Refusal) (p : State → Bool) : Bool :=
  match o with
  | .next t => p t
  | .fault _ => false
  | .refused _ => false

/-- Reset, with ARG0 and ARG1 written. -/
def withOperands (a b : Word) : State := { State.reset with arg0 := a, arg1 := b }

/-- Right after INIT from reset. -/
def absorbing : State := startDigest State.reset

/-- In ABSORB with the three bytes "ABC" pending (the example of 41_word_encoder.md R122). -/
def pendingAbc : State := { absorbing with encBuf := 0x414243#24, encCnt := 3 }

/-- In ABSORB with the byte "A" pending. -/
def pendingA : State := { absorbing with encBuf := 0x410000#24, encCnt := 1 }

/-- A finished digest with nothing pending. -/
def finished : State := { absorbing with phase := .done }

/-- Reset after a failed command. -/
def failedOnce : State := raiseError .illegalOpcode State.reset

/-! ### WellFormed: the one check refuses an ill-formed term -/

theorem smoke_char_operand_too_wide : (Instr.char 0x01000000#32).wf = false := by decide
theorem smoke_char_widest_operand : (Instr.char 0x00FFFFFF#32).wf = true := by decide

/-! ### Decoding: words written out bit by bit from 30_encoding.md R82 and R84 -/

theorem decode_init : decode 0b00000000000000000000000000000001#32 = .ok .init := by decide
theorem decode_char : decode 0b00000000000000000100000100000010#32 = .ok (.char 0x41#32) := by decide
theorem decode_char_all_ones : decode 0b11111111111111111111111100000010#32 = .ok (.char 0xFFFFFF#32) := by decide
theorem decode_final : decode 0b00000000000000000000000000000011#32 = .ok .final := by decide
theorem decode_xform : decode 0b00000000000000000000000000010000#32 = .ok .xform := by decide
theorem decode_rotl : decode 0b00000000000000000000000000010001#32 = .ok .rotl := by decide
theorem decode_rotr : decode 0b00000000000000000000000000010010#32 = .ok .rotr := by decide
theorem decode_add : decode 0b00000000000000000000000000010011#32 = .ok .add := by decide
theorem decode_zero_illegal : decode 0#32 = .error .illegalOpcode := by decide
theorem decode_illegal_before_reserved : decode 0x00000100#32 = .error .illegalOpcode := by decide
theorem decode_init_reserved : decode 0x00000101#32 = .error .reservedImm := by decide
theorem decodeTableWord_short_row : decodeTableWord 8 0x02 = some (.char 0#32) := by decide

/-! ### The commands: worked values of 95_test_vectors.md -/

/-- Section 2.4: STATE5 right after INIT. -/
theorem test_init_slot5 : nextIs (exec .init failedOnce)
    (fun t => t.slot 5 == 0x656011A4#32 && statusWord t == 0x00000010#32) = true := by decide
/-- Section 2.2, step 2: U+00E9 after 'a'. -/
theorem test_char_two_bytes : nextIs (exec (.char 0xE9#32) { absorbing with encBuf := 0x610000#24, encCnt := 1 })
    (fun t => encWord t == 0x0361C3A9#32) = true := by decide
/-- R122's example: 'D' completes the word 0x41424344, transformed to 0x9C78C0AF; section 2.4: STATE1 after it. -/
theorem test_char_completes_word : nextIs (exec (.char 0x44#32) pendingAbc)
    (fun t => t.lastWord == 0x41424344#32 && t.lastXf == 0x9C78C0AF#32 && t.slot 1 == 0xFEFDE647#32 &&
      encWord t == 0#32) = true := by decide +kernel
/-- Section 2.5: the digest of "A" begins cb78d79e and its slot 7 is the common 7e93b599. -/
theorem test_final_of_a : nextIs (exec .final pendingA)
    (fun t => t.slot 0 == 0xCB78D79E#32 && t.slot 7 == 0x7E93B599#32 && t.pos == 1#32) = true := by decide +kernel
/-- Section 2.8: FINAL before INIT is WRONG_PHASE. -/
theorem test_final_wrong_phase : nextIs (exec .final State.reset) (fun t => statusWord t == 0x00000104#32) = true := by
  decide
/-- Section 2.3: XFORM right after reset. -/
theorem test_xform_reset : nextIs (exec .xform State.reset) (fun t => t.result == 0xA5553E9C#32) = true := by
  decide +kernel
/-- Section 2.3: the largest index. -/
theorem test_xform_last_index : nextIs (exec .xform (withOperands 0xFFFFFFFF#32 0xFFFFFFFF#32))
    (fun t => t.result == 0x1EE4FC1C#32) = true := by decide +kernel
/-- Section 2.1: n = -1 is a rotation left by 31. -/
theorem test_rotl_negative : nextIs (exec .rotl (withOperands 0x80000001#32 0xFFFFFFFF#32))
    (fun t => t.result == 0xC0000000#32) = true := by decide
/-- Section 2.1: n = 32 is the identity. -/
theorem test_rotl_by_32 : nextIs (exec .rotl (withOperands 0x80000001#32 0x20#32))
    (fun t => t.result == 0x80000001#32) = true := by decide
/-- Section 2.1: rotation right by 4. -/
theorem test_rotr_4 : nextIs (exec .rotr (withOperands 0x12345678#32 4#32))
    (fun t => t.result == 0x81234567#32) = true := by decide
/-- Section 2.1: the carry out is discarded, and STICKY stays. -/
theorem test_add_wraps : nextIs (exec .add { failedOnce with arg0 := 0xFFFFFFFF#32, arg1 := 1#32 })
    (fun t => t.result == 0#32 && statusWord t == 0x00000100#32) = true := by decide
/-- R194: CHAR U+D800 in IDLE is WRONG_PHASE. -/
theorem test_error_priority : nextIs (executeCommand 0x00D80002#32 State.reset)
    (fun t => statusWord t == 0x00000104#32) = true := by decide
/-- Section 2.6: DIGEST2 and DIGEST3 of 0xDAB2C0DE in slot 1. -/
theorem test_digest_register : (hostRead 0x68 (State.reset.setSlot 1 0xDAB2C0DE#32) = 0x64616232#32) ∧
    (hostRead 0x6C (State.reset.setSlot 1 0xDAB2C0DE#32) = 0x63306465#32) := by decide
/-- R158: folding the words of "ABCDEFGH" in order and in the other order gives different STATE[1]. -/
theorem test_fold_order_matters :
    (foldStep 1 0x45464748#32 (foldStep 0 0x41424344#32 initState)).get 1 = 0xA931F1C4#32 ∧
    (foldStep 0 0x41424344#32 (foldStep 1 0x45464748#32 initState)).get 1 = 0xCAB1F4CA#32 := by decide +kernel
/-- R142: the inverse of section 2.3's value. -/
theorem test_transform_inverse : transformInverse 0x2E57556E#32 0 = 0x12345678#32 := by decide +kernel
/-- A table row runs as the first command after reset. -/
theorem test_first_step_after_reset : nextIs (step (State.reset.withFetchWord 32 0x10))
    (fun t => t.result == 0xA5553E9C#32) = true := by decide +kernel

/-! ### Witnesses: a state and operands that meet each statement's hypotheses -/

theorem witness_OpcodeMapMatchesTable : decode 0x10FFFF02#32 = .ok (.char 0x10FFFF#32) := by decide

theorem witness_IllegalAndReservedEncodingsFail :
    ((0x00000004#32).extractLsb' 0 8).toNat = 0x04 ∧ ((0x0000000F#32).extractLsb' 0 8).toNat = 0x0F ∧
    ((0x00000014#32).extractLsb' 0 8).toNat = 0x14 ∧ ((0x00000113#32).extractLsb' 0 8).toNat = 0x13 ∧
    ((0x00000113#32).extractLsb' 8 24).toNat ≠ 0 ∧ ((0x00D80002#32).extractLsb' 0 8).toNat = 0x02 ∧
    0xD800 ≤ ((0x00D80002#32).extractLsb' 8 24).toNat ∧ 0x10FFFF < ((0x11000002#32).extractLsb' 8 24).toNat ∧
    absorbing.phase = .absorb := by decide

theorem witness_DecodeEncodeRoundTrip : (Instr.char 0x00FFFFFF#32).wf = true := by decide

theorem witness_DecodedWordIsItsEncoding : decode 0xFFFFFF02#32 = .ok (.char 0x00FFFFFF#32) := by decide

theorem witness_EveryCommandEndsWithItsCode :
    (∃ t, executeCommand 0x00000000#32 State.reset = .next t ∧ t.err ≠ 0#4) ∧
    ∃ t, hostWrite 0x08 7#32 State.reset = .next t := ⟨⟨_, rfl, by decide⟩, _, rfl⟩

theorem witness_StickySetByFailureClearedByInit :
    (∃ t, serveEvent (wr 0x00 0x00000001#32) failedOnce = .next t ∧ failedOnce.sticky = true ∧ t.sticky = false) ∧
    (∃ t, serveEvent (wr 0x00 0x00000000#32) State.reset = .next t ∧ t.err ≠ 0#4 ∧ State.reset.sticky = false ∧
      t.sticky = true) := ⟨⟨_, rfl, by decide, by decide⟩, _, rfl, by decide, by decide, by decide⟩

theorem witness_RotationBitsAndAddition : (0 : Nat) < 32 ∧ (31 : Nat) < 32 := by decide

theorem witness_ReservedImmFails :
    (0x00000101#32).extractLsb' 0 8 = 0x01#8 ∧ (0x00000101#32).extractLsb' 8 24 ≠ 0#24 ∧
    (0x80000003#32).extractLsb' 0 8 = 0x03#8 ∧ (0x80000003#32).extractLsb' 8 24 ≠ 0#24 ∧
    (0x00000110#32).extractLsb' 0 8 = 0x10#8 ∧ (0x00000110#32).extractLsb' 8 24 ≠ 0#24 ∧
    (0x00000111#32).extractLsb' 0 8 = 0x11#8 ∧ (0x00000111#32).extractLsb' 8 24 ≠ 0#24 ∧
    (0x00000112#32).extractLsb' 0 8 = 0x12#8 ∧ (0x00000112#32).extractLsb' 8 24 ≠ 0#24 ∧
    (0xFFFFFF13#32).extractLsb' 0 8 = 0x13#8 ∧ (0xFFFFFF13#32).extractLsb' 8 24 ≠ 0#24 := by decide

theorem witness_RotationAmountIsAnyInteger :
    (withOperands 0x80000001#32 0xFFFFFFFF#32).arg1 = BitVec.ofInt 32 (-1) := by decide

theorem witness_Utf8Table :
    (0x7F#32 : Word).toNat ≤ 0x7F ∧ 0x80 ≤ (0x80#32 : Word).toNat ∧ (0x7FF#32 : Word).toNat ≤ 0x7FF ∧
    0x800 ≤ (0x800#32 : Word).toNat ∧ (0xFFFF#32 : Word).toNat ≤ 0xFFFF ∧ 0x10000 ≤ (0x10000#32 : Word).toNat ∧
    (0x10FFFF#32 : Word).toNat ≤ 0x10FFFF := by decide

/-- The boundary examples of R116. -/
theorem test_utf8_boundaries :
    utf8 0x7F#32 = [0x7F#8] ∧ utf8 0x80#32 = [0xC2#8, 0x80#8] ∧ utf8 0x7FF#32 = [0xDF#8, 0xBF#8] ∧
    utf8 0x800#32 = [0xE0#8, 0xA0#8, 0x80#8] ∧ utf8 0xFFFF#32 = [0xEF#8, 0xBF#8, 0xBF#8] ∧
    utf8 0x10000#32 = [0xF0#8, 0x90#8, 0x80#8, 0x80#8] ∧ utf8 0x10FFFF#32 = [0xF4#8, 0x8F#8, 0xBF#8, 0xBF#8] := by
  decide

theorem witness_Utf8IsPrefixCode :
    isScalar 0xE9#32 = true ∧ utf8 0xE9#32 ++ [0x41#8] = utf8 0xE9#32 ++ [0x41#8] := by decide

theorem witness_PushByteFillsOrAbsorbs :
    absorbing.encCnt.val < 3 ∧ ({ pendingAbc with encCnt := 2 } : State).encCnt.val < 3 ∧ pendingAbc.encCnt.val = 3 := by
  decide

theorem witness_CharEncodesOneCharacter :
    absorbing.phase = .absorb ∧ isScalar 0xD7FF#32 = true ∧ isScalar 0xE000#32 = true ∧ isScalar 0x10FFFF#32 = true ∧
    State.reset.phase ≠ .absorb ∧ isScalar 0xD800#32 = false ∧ isScalar 0xDFFF#32 = false ∧
    isScalar 0x110000#32 = false ∧ (0xFFFFFF#32 : Word).toNat < 2 ^ 24 := by decide

theorem witness_CharCompletesAtMostOneWord :
    absorbing.phase = .absorb ∧ (pendingBytes absorbing ++ utf8 0x20AC#32).length < 4 ∧
    pendingAbc.phase = .absorb ∧ 4 ≤ (pendingBytes pendingAbc ++ utf8 0x41#32).length ∧ isScalar 0x41#32 = true ∧
    isScalar 0x20AC#32 = true := by decide

theorem pendingA_inv : Inv pendingA := ⟨by decide, fun h => absurd h (by decide), by decide, by decide⟩
theorem absorbing_inv : Inv absorbing := ⟨by decide, fun h => absurd h (by decide), by decide, by decide⟩

theorem witness_FlushPadsThePendingBytes :
    Inv absorbing ∧ absorbing.encCnt.val = 0 ∧ Inv pendingA ∧ 0 < pendingA.encCnt.val :=
  ⟨absorbing_inv, by decide, pendingA_inv, by decide⟩

theorem witness_EncoderCollidesOnTrailingNulOnly :
    (∀ c ∈ ([0x41#32, 0#32] : List Word), isScalar c = true) ∧ (∀ d ∈ ([0x41#32] : List Word), isScalar d = true) ∧
    s2w [0x41#32, 0#32] = s2w [0x41#32] ∧ (utf8String [0x41#32]).length % 4 ≠ 0 :=
  ⟨List.all_eq_true.mp (by decide), List.all_eq_true.mp (by decide), by decide, by decide⟩

theorem witness_SurrogatePairIsScalar :
    0xD800 ≤ (0xD83D#32 : Word).toNat ∧ (0xD83D#32 : Word).toNat ≤ 0xDBFF ∧ 0xDC00 ≤ (0xDE00#32 : Word).toNat ∧
    (0xDE00#32 : Word).toNat ≤ 0xDFFF ∧ combineSurrogates 0xD83D#32 0xDE00#32 = 0x1F600#32 := by decide

theorem witness_FinalFinishesDigest :
    pendingA.phase = .absorb ∧ Inv pendingA ∧ State.reset.phase ≠ .absorb ∧ finished.phase ≠ .absorb :=
  ⟨by decide, pendingA_inv, by decide, by decide⟩

theorem witness_RegisterMapReadsAndWrites :
    (0x28 % 4 = 0 ∧ 0x28 < 0x100) ∧ (0x3C % 4 = 0 ∧ 0x3C ≤ 0x3C) ∧ (0xA0 % 4 = 0 ∧ 0xA0 ≤ 0xA0) ∧
    (0xFC % 4 = 0 ∧ 0xFC < 0x100) ∧ (0x04 % 4 = 0 ∧ 0x04 ≠ 0x00 ∧ 0x04 ≠ 0x08 ∧ 0x04 ≠ 0x0C) := by decide

/-- Reserved and named offsets at the ends of their ranges (R22). -/
theorem test_register_map_ends :
    regAt 0x24 = .lastXf ∧ regAt 0x28 = .reserved ∧ regAt 0x3C = .reserved ∧ regAt 0x40 = .state 0 ∧
    regAt 0x5C = .state 7 ∧ regAt 0x60 = .digest 0 ∧ regAt 0x9C = .digest 15 ∧ regAt 0xA0 = .reserved ∧
    regAt 0xFC = .reserved := by decide

theorem witness_StatusFields : Inv absorbing ∧ ∃ t, hostWrite 0x10 7#32 failedOnce = .next t := ⟨absorbing_inv, _, rfl⟩

theorem witness_EncRegisterFields : 0 < pendingA.encCnt.val ∧ Inv pendingA ∧ pendingA.encCnt.val ≤ 2 :=
  ⟨by decide, pendingA_inv, by decide⟩

theorem witness_OnlyContractAccessesTakeEffect :
    (∃ t, serveAccess ⟨.host, 32, 0xFC, .read⟩ State.reset = .next t) ∧
    serveAccess ⟨.host, 8, 0x04, .read⟩ State.reset = .refused .outsideContract ∧
    serveAccess ⟨.host, 32, 0x02, .read⟩ State.reset = .refused .outsideContract ∧
    serveAccess ⟨.host, 32, 0x100, .read⟩ State.reset = .refused .outsideContract ∧
    serveAccess ⟨.other, 32, 0x04, .read⟩ State.reset = .refused .secondHost := ⟨⟨_, rfl⟩, rfl, rfl, rfl, rfl⟩

theorem witness_ReadsHaveNoSideEffect : 0xFC % 4 = 0 ∧ 0xFC < 0x100 := by decide

theorem witness_StepRunsDecodedCommand :
    ({ State.reset with pending := [wr 0x00 0x13#32] } : State).pending = wr 0x00 0x13#32 :: [] ∧
    decode 0x13#32 = .ok .add ∧ decode 0x113#32 = .error .reservedImm ∧ (Instr.char 0x41#32).wf = true ∧
    State.reset.pending = [] := by decide

theorem witness_StepKeepsInvariants :
    ∃ s t : State, s = { pendingA with pending := [wr 0x00 0x00004202#32] } ∧ Inv s ∧ step s = .next t ∧
      t.encCnt = 2 :=
  ⟨_, _, rfl, ⟨by decide, fun h => absurd h (by decide), by decide, by decide⟩, rfl, by decide⟩

theorem witness_PhaseChangesOnlyByInitFinalReset :
    (∃ t, serveEvent (wr 0x00 0x00000001#32) State.reset = .next t ∧ t.phase ≠ State.reset.phase) ∧
    (∃ t, serveEvent (wr 0x00 0x00000003#32) absorbing = .next t ∧ t.phase ≠ absorbing.phase) ∧
    (∃ t, serveEvent .reset absorbing = .next t ∧ t.phase ≠ absorbing.phase) :=
  ⟨⟨_, rfl, by decide⟩, ⟨_, rfl, by decide⟩, _, rfl, by decide⟩

theorem witness_OperandsChangeOnlyByHostWrites :
    (∃ t, serveEvent (wr 0x08 7#32) State.reset = .next t ∧ t.arg0 ≠ State.reset.arg0) ∧
    (∃ t, serveEvent (wr 0x0C 7#32) State.reset = .next t ∧ t.arg1 ≠ State.reset.arg1) :=
  ⟨⟨_, rfl, by decide⟩, _, rfl, by decide⟩

theorem witness_DigestIgnoresOperands :
    (∃ t, exec .init State.reset = .next t) ∧ (∃ t, exec .final pendingA = .next t) ∧
    ∃ t, exec (.char 0x41#32) pendingAbc = .next t := ⟨⟨_, rfl⟩, ⟨_, rfl⟩, _, rfl⟩

theorem witness_ResultWrittenOnlyByPrimitives :
    ∃ t, serveEvent (wr 0x00 0x00000013#32) (withOperands 1#32 2#32) = .next t ∧
      t.result ≠ (withOperands 1#32 2#32).result := ⟨_, rfl, by decide⟩

theorem witness_StateWrittenOnlyByDigestCommands :
    ∃ t, serveEvent (wr 0x00 0x00000001#32) State.reset = .next t ∧ t.state ≠ State.reset.state :=
  ⟨_, rfl, by decide⟩

theorem witness_DoneKeepsDigest :
    ∃ t, finished.phase = .done ∧ serveEvent (wr 0x00 0x00000003#32) finished = .next t ∧
      wr 0x00 0x00000003#32 ≠ .reset ∧ wr 0x00 0x00000003#32 ≠ wr 0x00 0x00000001#32 :=
  ⟨_, by decide, rfl, by decide, by decide⟩

theorem witness_StepKeepsErrorSticky :
    ∃ s t : State, s = { failedOnce with pending := [wr 0x00 0x00000000#32] } ∧ (s.err ≠ 0#4 → s.sticky = true) ∧
      step s = .next t ∧ t.err ≠ 0#4 := ⟨_, _, rfl, by decide, rfl, by decide⟩

theorem witness_StepKeepsLastTransform :
    ∃ s t : State, s = { absorbing with pending := [wr 0x00 0x00004102#32] } ∧
      (s.lastXf = transform s.lastWord (s.pos - 1#32).toNat ∨ (s.lastWord = 0#32 ∧ s.lastXf = 0#32)) ∧
      step s = .next t := ⟨_, _, rfl, .inr (by decide), rfl⟩

theorem witness_CommandsIgnoreTheHostSide : ∃ t, exec .xform State.reset = .next t := ⟨_, rfl⟩

theorem witness_StreamingComputesDigest : ∀ c ∈ ([0x61#32, 0xE9#32, 0x20AC#32, 0x1F600#32] : List Word),
    isScalar c = true := List.all_eq_true.mp (by decide)

/-- "aé€😀": three complete words after FINAL, two before it (95_test_vectors.md, section 2.2). -/
theorem witness_StreamedCharactersFoldInOrder :
    (packBytes ((utf8String [0x61#32, 0xE9#32, 0x20AC#32, 0x1F600#32]).take 8)).getLast? = some 0x82ACF09F#32 := by decide

theorem witness_ValidDigestHoldsD : ∃ t, ValidDigest [0x41#32] t := by
  refine ⟨finishDigest pendingA, by decide, by decide, State.reset, absorbing, rfl, ?_⟩
  rfl

theorem witness_UntouchedSlotsDependOnCountOnly :
    (s2w [0x41#32]).length + 1 ≤ (2 : Fin 8).val ∧ (s2w [0x42#32]).length = (s2w [0x41#32]).length := by decide

theorem witness_HashProcedureReadsHashPassword :
    hostValidate [0x63#32] [0x61#32, 0x62#32] = true ∧ (∀ c ∈ ([0x63#32] : List Word), isScalar c = true) ∧
    (∀ c ∈ ([0x61#32, 0x62#32] : List Word), isScalar c = true) ∧
    ({ State.reset with pending := hashProcedure [0x63#32] [0x61#32, 0x62#32] ++ [.reset] } : State).pending =
      hashProcedure [0x63#32] [0x61#32, 0x62#32] ++ [.reset] :=
  ⟨by decide, List.all_eq_true.mp (by decide), List.all_eq_true.mp (by decide), rfl⟩

end Sys2Proof.Tests
end

section
/-! PROOFS. The decoder reads back what the encoder wrote (30_encoding.md R82 to R84). -/

namespace Sys2Proof

/-- CHAR's word carries CHAR's opcode, whatever the operand: the shift leaves the low byte free (R84, R89). -/
@[simp] theorem opcodeOf_encode_char (cp : Word) : opcodeOf (encode (.char cp)) = 0x02#8 := by
  ext k hk
  simp only [opcodeOf, encode, BitVec.getElem_extractLsb', BitVec.getLsbD_or, BitVec.getLsbD_shiftLeft]
  interval_cases k <;> simp

/-- CHAR's word carries the low 24 bits of the operand: the opcode has no bit from 8 on (R83, R89). -/
@[simp] theorem immOf_encode_char (cp : Word) : immOf (encode (.char cp)) = cp.setWidth 24 := by
  have opcode_high (k : Nat) : (2#32).getLsbD (8 + k) = false := by
    rw [Nat.add_comm]
    simp [BitVec.getLsbD_ofNat, Nat.testBit_add]
  ext k hk
  have in_word : 8 + k < 32 := by omega
  simpa [immOf, encode, opcode_high] using fun _ => in_word

/-- An operand that fits IMM24 survives the truncation to 24 bits (R83). -/
theorem setWidth_setWidth_of_wf {cp : Word} (h : (Instr.char cp).wf = true) : (cp.setWidth 24).setWidth 32 = cp := by
  have hlt : cp.toNat < 2 ^ 24 := of_decide_eq_true h
  apply BitVec.eq_of_toNat_eq
  simp only [BitVec.toNat_setWidth]
  omega

/-- `decode` inverts `encode` on the commands that have an encoding. -/
theorem decode_encode {i : Instr} (h : i.wf = true) : decode (encode i) = .ok i := by
  cases i with
  | char cp => simp [decode, setWidth_setWidth_of_wf h]
  | init | final | xform | rotl | rotr | add => decide

end Sys2Proof
end

section
/-! PROOFS. What a step does with the oldest pending input, as equations, and O38. -/

namespace Sys2Proof.Machine

/-- With nothing pending there is no step (00_scope.md R19; log entry 3). -/
theorem step_of_pending_nil {s : State} (h : s.pending = []) : step s = .refused .noAccess := by
  simp [step, serveNext, h]

/-- A step serves the oldest pending input and takes it off the list (20_memory.md R68). -/
theorem step_of_pending_cons {s : State} {e : Event} {rest : List Event} (h : s.pending = e :: rest) :
    step s = serveEvent e { s with pending := rest } := by
  simp [step, serveNext, h]

/-- A host write to CMD meets the contract of an access and executes the value (20_memory.md R65). -/
@[simp] theorem serveEvent_wr_cmd (v : Word) (s : State) : serveEvent (wr 0x00 v) s = executeCommand v s := rfl

/-- A value that decodes runs its command (30_encoding.md R87). -/
theorem executeCommand_of_decode_ok {v : Word} {i : Instr} (h : decode v = .ok i) (s : State) :
    executeCommand v s = exec i s := by
  simp [executeCommand, h]

/-- A value that does not decode raises the decoder's error (30_encoding.md R87). -/
theorem executeCommand_of_decode_error {v : Word} {e : DecodeError} (h : decode v = .error e) (s : State) :
    executeCommand v s = .next (raiseError (decodeErrCode e) s) := by
  simp [executeCommand, h]

/-- Placing a word's value puts the write of that word first. -/
theorem withFetchWord_toNat_pending (s : State) (v : Word) :
    (s.withFetchWord 32 v.toNat).pending = wr 0x00 v :: s.pending := by
  simp only [State.withFetchWord, Nat.mod_eq_of_lt v.isLt, BitVec.ofNat_toNat, BitVec.setWidth_eq]

/-- A step on a pending write to CMD executes the value written. -/
theorem step_of_pending_wr_cmd {s : State} {v : Word} {rest : List Event} (h : s.pending = wr 0x00 v :: rest) :
    step s = executeCommand v { s with pending := rest } := by
  rw [step_of_pending_cons h, serveEvent_wr_cmd]

/-- A step right after placing a word's value executes that value; the placed write is taken off again. -/
theorem step_withFetchWord_toNat (s : State) (v : Word) :
    step (s.withFetchWord 32 v.toNat) = executeCommand v s :=
  step_of_pending_wr_cmd (withFetchWord_toNat_pending s v)

/-- Settles O38: a step serves the oldest input, a served write to CMD is `executeCommand`, and that follows what the
decoder answers; for a placed command the decoder answers the command itself (`decode_encode`). -/
theorem stepRunsDecodedCommand : Obligations.StepRunsDecodedCommand := by
  refine ⟨?decodes, ?decodeFails, ?placedCommand, ?oldestInput, ?nothingPending⟩
  case decodes =>
    intro s rest v i hp hd
    rw [step_of_pending_wr_cmd hp, executeCommand_of_decode_ok hd]
  case decodeFails =>
    intro s rest v e hp hd
    rw [step_of_pending_wr_cmd hp, executeCommand_of_decode_error hd]
  case placedCommand =>
    intro s i hwf
    rw [step_withFetchWord_toNat, executeCommand_of_decode_ok (decode_encode hwf)]
  case oldestInput => exact fun s e rest hp => step_of_pending_cons hp
  case nothingPending => exact fun s hp => step_of_pending_nil hp

end Sys2Proof.Machine
end

section
/-! PROOFS. A word the decoder reads is its command's encoding (30_encoding.md R82 to R84). -/

namespace Sys2Proof

/-- OPCODE and IMM24 determine the word (30_encoding.md R82). -/
theorem word_eq_of_fields {v w : Word} (hop : opcodeOf v = opcodeOf w) (himm : immOf v = immOf w) : v = w := by
  rw [word_eq_fields v, word_eq_fields w, hop, himm]

/-- `encode` inverts `decode`, so a command has one word only (30_encoding.md R84, D7). -/
theorem encode_of_decode_ok {v : Word} {i : Instr} (h : decode v = .ok i) : encode i = v := by
  obtain ⟨hop, himm, rfl⟩ | ⟨hop, rfl⟩ | ⟨hop, himm, rfl⟩ | ⟨hop, himm, rfl⟩ | ⟨hop, himm, rfl⟩ | ⟨hop, himm, rfl⟩ |
    ⟨hop, himm, rfl⟩ := decode_ok_cases h
  case inr.inl => exact word_eq_of_fields (by simp [hop]) (by simp)
  all_goals
    apply word_eq_of_fields
    · rw [hop]; decide
    · rw [himm]; decide

/-- Every decode error, with the fields it was raised for (30_encoding.md R85). -/
theorem decode_error_cases {v : Word} {e : DecodeError} (h : decode v = .error e) :
    (e = .illegalOpcode ∧ ¬ (opcodeOf v).toNat ∈ [0x01, 0x02, 0x03, 0x10, 0x11, 0x12, 0x13]) ∨
    (e = .reservedImm ∧ (opcodeOf v).toNat ∈ [0x01, 0x03, 0x10, 0x11, 0x12, 0x13] ∧ immOf v ≠ 0#24) := by
  unfold decode at h
  split_ifs at h with h1 h2 h3 h4 h5 h6 h7
  case neg =>
    injection h with h
    simp only [BitVec.toNat_eq] at h1 h2 h3 h4 h5 h6 h7
    exact .inl ⟨h.symm, by simp_all⟩
  all_goals
    obtain ⟨himm, rfl⟩ := formatN_error h
    exact .inr ⟨rfl, by simp [*], himm⟩

end Sys2Proof
end

section
/-! PROOFS. What an input that takes effect can do, as a relation: one constructor for each kind of effect. -/

namespace Sys2Proof.Machine

/-! ### What the encoder and FINAL leave in each field -/

@[simp] theorem pushBytes_arg0 (bs : List Byte) (s : State) : (pushBytes bs s).arg0 = s.arg0 :=
  (pushBytes_frame bs s).arg0

@[simp] theorem pushBytes_arg1 (bs : List Byte) (s : State) : (pushBytes bs s).arg1 = s.arg1 :=
  (pushBytes_frame bs s).arg1

@[simp] theorem pushBytes_result (bs : List Byte) (s : State) : (pushBytes bs s).result = s.result :=
  (pushBytes_frame bs s).result

@[simp] theorem pushBytes_phase (bs : List Byte) (s : State) : (pushBytes bs s).phase = s.phase :=
  (pushBytes_frame bs s).phase

@[simp] theorem pushBytes_err (bs : List Byte) (s : State) : (pushBytes bs s).err = s.err := (pushBytes_frame bs s).err

@[simp] theorem pushBytes_sticky (bs : List Byte) (s : State) : (pushBytes bs s).sticky = s.sticky :=
  (pushBytes_frame bs s).sticky

@[simp] theorem pushBytes_pending (bs : List Byte) (s : State) : (pushBytes bs s).pending = s.pending :=
  (pushBytes_frame bs s).pending

@[simp] theorem pushBytes_readValues (bs : List Byte) (s : State) : (pushBytes bs s).readValues = s.readValues :=
  (pushBytes_frame bs s).readValues

@[simp] theorem finishDigest_arg0 (s : State) : (finishDigest s).arg0 = s.arg0 := (flushEncoder_frame (succeed s)).arg0

@[simp] theorem finishDigest_arg1 (s : State) : (finishDigest s).arg1 = s.arg1 := (flushEncoder_frame (succeed s)).arg1

@[simp] theorem finishDigest_result (s : State) : (finishDigest s).result = s.result :=
  (flushEncoder_frame (succeed s)).result

@[simp] theorem finishDigest_pos (s : State) : (finishDigest s).pos = (flushEncoder (succeed s)).pos := rfl

@[simp] theorem finishDigest_posm31 (s : State) : (finishDigest s).posm31 = (flushEncoder (succeed s)).posm31 := rfl

@[simp] theorem finishDigest_encBuf (s : State) : (finishDigest s).encBuf = (flushEncoder (succeed s)).encBuf := rfl

@[simp] theorem finishDigest_encCnt (s : State) : (finishDigest s).encCnt = 0 := flushEncoder_encCnt (succeed s)

@[simp] theorem finishDigest_lastWord (s : State) : (finishDigest s).lastWord = (flushEncoder (succeed s)).lastWord :=
  rfl

@[simp] theorem finishDigest_lastXf (s : State) : (finishDigest s).lastXf = (flushEncoder (succeed s)).lastXf := rfl

@[simp] theorem finishDigest_phase (s : State) : (finishDigest s).phase = .done := rfl

@[simp] theorem finishDigest_err (s : State) : (finishDigest s).err = 0#4 := (flushEncoder_frame (succeed s)).err

@[simp] theorem finishDigest_sticky (s : State) : (finishDigest s).sticky = s.sticky :=
  (flushEncoder_frame (succeed s)).sticky

@[simp] theorem finishDigest_pending (s : State) : (finishDigest s).pending = s.pending :=
  (flushEncoder_frame (succeed s)).pending

@[simp] theorem finishDigest_readValues (s : State) : (finishDigest s).readValues = s.readValues :=
  (flushEncoder_frame (succeed s)).readValues

/-! ### The effect of a command value -/

/-- The values of the four standalone primitives (30_encoding.md R84). -/
def IsPrimitiveWord (v : Word) : Prop := v = 0x10#32 ∨ v = 0x11#32 ∨ v = 0x12#32 ∨ v = 0x13#32

/-- What a write of a value to CMD does to a state: the kinds of effect of 30_encoding.md R87, a failure being one of
them, each with the values it is possible for. -/
inductive CommandEffect (s : State) : Word → State → Prop
  | fails (v : Word) (e : ErrCode) (notOk : e ≠ .ok) : CommandEffect s v (raiseError e s)
  | init : CommandEffect s 0x00000001#32 (startDigest (succeed s))
  | char (v : Word) (bs : List Byte) (isChar : v &&& 0xFF#32 = 0x02#32) (inPhase : s.phase = .absorb) :
      CommandEffect s v (pushBytes bs (succeed s))
  | final (inPhase : s.phase = .absorb) : CommandEffect s 0x00000003#32 (finishDigest s)
  | primitive (v r : Word) (isPrimitive : IsPrimitiveWord v) : CommandEffect s v (writeResult r s)

/-- A command that runs has an effect of its kind, under its own value. -/
theorem commandEffect_of_exec {i : Instr} {s t : State} (h : exec i s = .next t) : CommandEffect s (encode i) t := by
  obtain ⟨rfl, rfl⟩ | ⟨cp, rfl, hp, -, rfl⟩ | ⟨cp, rfl, -, -, rfl⟩ | ⟨rfl, hp, rfl⟩ | ⟨-, -, rfl⟩ | ⟨rfl, rfl⟩ |
    ⟨rfl, rfl⟩ | ⟨rfl, rfl⟩ | ⟨rfl, rfl⟩ := exec_cases h
  · exact .init
  · exact .char _ _ (Laws.TableRow.char cp) hp
  · exact .fails _ _ (by decide)
  · exact .final hp
  · exact .fails _ _ (by decide)
  all_goals exact .primitive _ _ (by simp [IsPrimitiveWord, encode])

/-- Every value written to CMD has one of these effects. -/
theorem commandEffect_of_executeCommand {v : Word} {s t : State} (h : executeCommand v s = .next t) :
    CommandEffect s v t := by
  obtain ⟨i, hd, hx⟩ | ⟨e, -, rfl⟩ := executeCommand_cases h
  · exact encode_of_decode_ok hd ▸ commandEffect_of_exec hx
  · exact .fails _ _ (by cases e <;> decide)

/-! ### The effect of an input -/

/-- What an input that takes effect does to a state (20_memory.md R65, 70_reset_and_hazards.md R216). -/
inductive EventEffect (s : State) : Event → State → Prop
  | reset : EventEffect s .reset (platformReset s)
  | read (off : Nat) : EventEffect s (rd off) (recordRead (hostRead off s) s)
  | arg0 (v : Word) : EventEffect s (wr 0x08 v) { s with arg0 := v }
  | arg1 (v : Word) : EventEffect s (wr 0x0C v) { s with arg1 := v }
  | ignored (off : Nat) (v : Word) (notCmd : off ≠ 0x00) (notArg0 : off ≠ 0x08) (notArg1 : off ≠ 0x0C) :
      EventEffect s (wr off v) s
  | command (v : Word) (t : State) (effect : CommandEffect s v t) : EventEffect s (wr 0x00 v) t

/-- A host write has the effect of the register at its offset. -/
theorem eventEffect_of_hostWrite {off : Nat} {v : Word} {s t : State} (h : hostWrite off v s = .next t) :
    EventEffect s (wr off v) t := by
  obtain ⟨hr, hx⟩ | ⟨hr, rfl⟩ | ⟨hr, rfl⟩ | ⟨h0, h8, hC, rfl⟩ := hostWrite_cases h
  · obtain rfl := regAt_cmd.mp hr
    exact .command v t (commandEffect_of_executeCommand hx)
  · obtain rfl := regAt_arg0.mp hr
    exact .arg0 v
  · obtain rfl := regAt_arg1.mp hr
    exact .arg1 v
  · exact .ignored off v (mt regAt_cmd.mpr h0) (mt regAt_arg0.mpr h8) (mt regAt_arg1.mpr hC)

/-- The contract fixes an access's width (20_memory.md R64). -/
theorem Access.width_of_inContract {a : Access} (h : a.inContract = true) : a.width = 32 := by
  simp only [Access.inContract, Bool.and_eq_true, decide_eq_true_eq] at h
  exact h.1.1

/-- Every input that takes effect has one of these effects. -/
theorem eventEffect_of_serveEvent {e : Event} {s t : State} (h : serveEvent e s = .next t) : EventEffect s e t := by
  obtain ⟨⟨agent, width, off, kind⟩, rfl, ha⟩ | ⟨rfl, rfl⟩ := serveEvent_cases h
  · obtain ⟨rfl, hc, hk⟩ := serveAccess_cases ha
    obtain rfl := Access.width_of_inContract hc
    obtain ⟨rfl, rfl⟩ | ⟨v, rfl, hw⟩ := hk
    · exact .read off
    · exact eventEffect_of_hostWrite hw
  · exact .reset

@[simp] theorem wr_inj {off off' : Nat} {v v' : Word} : wr off v = wr off' v' ↔ off = off' ∧ v = v' := by simp [wr]

@[simp] theorem reset_ne_wr (off : Nat) (v : Word) : .reset ≠ wr off v := by simp [wr]

@[simp] theorem rd_ne_wr (off off' : Nat) (v : Word) : rd off ≠ wr off' v := by simp [rd, wr]

/-- A property that does not depend on what is pending, and that the effect of every input keeps, is kept by every
step. -/
theorem step_keeps {P : State → Prop} (ignoresPending : ∀ s rest, P s → P { s with pending := rest })
    (inputKeeps : ∀ s e t, EventEffect s e t → P s → P t) {s t : State} (hs : P s) (h : step s = .next t) : P t := by
  obtain ⟨e, rest, -, he⟩ := step_cases h
  exact inputKeeps _ e t (eventEffect_of_serveEvent he) (ignoresPending s rest hs)

end Sys2Proof.Machine
end

section
/-! PROOFS. The invariants that every step keeps: those of R42 (O41, O40), ERR and STICKY (O48), LAST_XF (O49). -/

namespace Sys2Proof.Machine

/-! ### The same registers -/

theorem SameDigest.refl (s : State) : SameDigest s s := ⟨rfl, rfl, rfl, rfl, rfl, rfl, rfl⟩

theorem SameDigest.trans {s t u : State} (h : SameDigest s t) (k : SameDigest t u) : SameDigest s u :=
  ⟨k.state.trans h.state, k.pos.trans h.pos, k.posm31.trans h.posm31, k.encBuf.trans h.encBuf,
    k.encCnt.trans h.encCnt, k.lastWord.trans h.lastWord, k.lastXf.trans h.lastXf⟩

/-- A failed command leaves the digest in progress (60_exceptions.md R196). -/
theorem raiseError_sameDigest (e : ErrCode) (s : State) : SameDigest s (raiseError e s) :=
  ⟨rfl, rfl, rfl, rfl, rfl, rfl, rfl⟩

/-- A standalone primitive leaves the digest in progress (10_state.md R31). -/
theorem writeResult_sameDigest (r : Word) (s : State) : SameDigest s (writeResult r s) :=
  ⟨rfl, rfl, rfl, rfl, rfl, rfl, rfl⟩

/-! ### The bytes that ENC_BUF does not hold are zero -/

/-- Item 1 of R42, the part of `Inv` that the encoder works on. -/
def EncPadding (s : State) : Prop := ∀ k : Fin 3, s.encCnt.val ≤ k.val → s.encBuf.extractLsb' (16 - 8 * k.val) 8 = 0#8

/-- An empty buffer is padding throughout. -/
theorem encPadding_of_encBuf_zero {s : State} (h : s.encBuf = 0#24) : EncPadding s := by
  intro k _
  simp [h]

/-- `0xFF` is the mask of one byte. -/
theorem getLsbD_byteMask {i : Nat} : (0xFF#24).getLsbD i = decide (i < 8) := by
  have mask : 0xFF#24 = (BitVec.allOnes 8).setWidth 24 := by decide
  simp only [mask, BitVec.getLsbD_setWidth, BitVec.getLsbD_allOnes, Bool.and_eq_right_iff_imp, decide_eq_true_eq]
  omega

/-- Bit `i` of ENC_BUF after byte `k` is put: the byte's own bit between `16-8k` and `23-8k`, the old one elsewhere
(41_word_encoder.md R121). -/
theorem getLsbD_putEncByte (buf : BitVec 24) {k : Nat} (hk : k < 3) (b : Byte) {i : Nat} (hi : i < 24) :
    (putEncByte buf k b).getLsbD i =
      if 16 - 8 * k ≤ i ∧ i < 24 - 8 * k then b.getLsbD (i - (16 - 8 * k)) else buf.getLsbD i := by
  simp only [putEncByte, BitVec.getLsbD_or, BitVec.getLsbD_and, BitVec.getLsbD_not, BitVec.getLsbD_shiftLeft,
    BitVec.getLsbD_setWidth, getLsbD_byteMask]
  split
  · next h =>
    simp [hi, show ¬ i < 16 - 8 * k by omega, show i - (16 - 8 * k) < 8 by omega, show i - (16 - 8 * k) < 24 by omega]
  · next h =>
    by_cases below : i < 16 - 8 * k
    · simp [hi, below]
    · have above : 8 ≤ i - (16 - 8 * k) := by omega
      simp [hi, below, above]

/-- Putting byte `k` leaves every other byte of ENC_BUF and sets byte `k` (41_word_encoder.md R121). -/
theorem extractLsb'_putEncByte (buf : BitVec 24) (k j : Fin 3) (b : Byte) :
    (putEncByte buf k.val b).extractLsb' (16 - 8 * j.val) 8 =
      if j = k then b else buf.extractLsb' (16 - 8 * j.val) 8 := by
  ext i hi
  simp only [BitVec.getElem_extractLsb']
  rw [getLsbD_putEncByte buf k.isLt b (by omega)]
  by_cases hjk : j = k
  · rw [if_pos (by omega), if_pos hjk, hjk, Nat.add_sub_cancel_left, BitVec.getLsbD_eq_getElem hi]
  · rw [if_neg (by omega), if_neg hjk, BitVec.getElem_extractLsb']

/-- push_byte keeps the padding: it fills the first free byte, or takes the whole word out. -/
theorem EncPadding.pushByte {s : State} (b : Byte) (h : EncPadding s) : EncPadding (pushByte b s) := by
  by_cases hc : s.encCnt.val < 3
  · rw [pushByte_of_lt b hc]
    intro j hj
    have hnext : (s.encCnt + 1).val = s.encCnt.val + 1 := by omega
    have hne : j ≠ ⟨s.encCnt.val, hc⟩ := fun e => by simp [e, hnext] at hj
    exact (extractLsb'_putEncByte s.encBuf ⟨s.encCnt.val, hc⟩ j b).trans
      ((if_neg hne).trans (h j (by simp only [hnext] at hj; omega)))
  · rw [pushByte_of_full b (by omega)]
    exact encPadding_of_encBuf_zero (by simp)

theorem EncPadding.pushBytes {s : State} (bs : List Byte) (h : EncPadding s) : EncPadding (pushBytes bs s) := by
  induction bs generalizing s with
  | nil => exact h
  | cons b bs ih => exact ih (h.pushByte b)

theorem EncPadding.flushEncoder {s : State} (h : EncPadding s) : EncPadding (flushEncoder s) := by
  by_cases hc : 0 < s.encCnt.val
  · rw [flushEncoder_of_pos hc]
    exact encPadding_of_encBuf_zero (by simp)
  · rwa [flushEncoder_of_zero (by omega)]

/-! ### The invariants of R42 -/

/-- The invariants depend on the digest in progress and PHASE, apart from the bound on ERR. -/
theorem Inv.of_sameDigest {s t : State} (h : Inv s) (hd : SameDigest s t) (hp : t.phase = s.phase)
    (he : t.err.toNat ≤ 4) : Inv t where
  encPadding k hk := hd.encBuf ▸ h.encPadding k (hd.encCnt ▸ hk)
  idleAtReset hidle := (h.idleAtReset (hp ▸ hidle)).trans hd
  doneFlushed hdone := hd.encCnt.trans (h.doneFlushed (hp ▸ hdone))
  errCode := he

/-- In ABSORB only the padding and the bound on ERR say anything. -/
theorem Inv.of_absorb {s : State} (hp : s.phase = .absorb) (hpad : EncPadding s) (he : s.err.toNat ≤ 4) : Inv s where
  encPadding := hpad
  idleAtReset hidle := by simp [hp] at hidle
  doneFlushed hdone := by simp [hp] at hdone
  errCode := he

theorem inv_reset : Inv State.reset where
  encPadding := encPadding_of_encBuf_zero rfl
  idleAtReset _ := .refl _
  doneFlushed _ := rfl
  errCode := by decide

/-- FINAL leaves no byte pending (44_finalizer_hex.md R172). -/
theorem inv_finishDigest {s : State} (h : Inv s) : Inv (finishDigest s) where
  encPadding := EncPadding.flushEncoder (s := succeed s) h.encPadding
  idleAtReset hidle := by simp at hidle
  doneFlushed _ := by simp
  errCode := by simp

theorem CommandEffect.keeps_inv {s t : State} {v : Word} (effect : CommandEffect s v t) (h : Inv s) : Inv t := by
  cases effect with
  | fails _ e _ => exact h.of_sameDigest (raiseError_sameDigest e s) rfl (errCode_code_le e)
  | init => exact .of_absorb rfl (encPadding_of_encBuf_zero rfl) (by simp)
  | char _ bs _ hp =>
    have padded : EncPadding (pushBytes bs (succeed s)) := EncPadding.pushBytes (s := succeed s) bs h.encPadding
    exact .of_absorb (by simpa using hp) padded (by simp)
  | final _ => exact inv_finishDigest h
  | primitive _ r _ => exact h.of_sameDigest (writeResult_sameDigest r s) rfl (by simp)

theorem EventEffect.keeps_inv {s t : State} {e : Event} (effect : EventEffect s e t) (h : Inv s) : Inv t := by
  cases effect with
  | reset => exact inv_reset.of_sameDigest ⟨rfl, rfl, rfl, rfl, rfl, rfl, rfl⟩ rfl (by simp)
  | read off => exact h.of_sameDigest ⟨rfl, rfl, rfl, rfl, rfl, rfl, rfl⟩ rfl h.errCode
  | arg0 v => exact h.of_sameDigest ⟨rfl, rfl, rfl, rfl, rfl, rfl, rfl⟩ rfl h.errCode
  | arg1 v => exact h.of_sameDigest ⟨rfl, rfl, rfl, rfl, rfl, rfl, rfl⟩ rfl h.errCode
  | ignored => exact h
  | command v t effect => exact effect.keeps_inv h

/-- Settles O41: the effect of every input keeps the invariants. The encoder keeps its padding byte by byte, FINAL
empties it, and the other effects leave the digest in progress or set it to its reset or initial values. -/
theorem stepKeepsInvariants : Obligations.StepKeepsInvariants := fun _ _ hs hstep =>
  step_keeps (fun _ _ h => h.of_sameDigest ⟨rfl, rfl, rfl, rfl, rfl, rfl, rfl⟩ rfl h.errCode)
    (fun _ _ _ effect h => effect.keeps_inv h) hs hstep

/-- Settles O40: the reset values meet the invariants, and `AfterReset` is about those same values. -/
theorem resetSatisfiesInvariants : Obligations.ResetSatisfiesInvariants :=
  ⟨inv_reset, ⟨⟨rfl, rfl⟩, rfl, .refl _, rfl, rfl, rfl⟩⟩

/-! ### A code in ERR means STICKY is set -/

/-- The invariant of O48. -/
def ErrorSticky (s : State) : Prop := s.err ≠ 0#4 → s.sticky = true

/-- A command that ends with a code sets STICKY, whatever STICKY was (60_exceptions.md R196). -/
theorem CommandEffect.errorSticky {s t : State} {v : Word} (effect : CommandEffect s v t) : ErrorSticky t := by
  intro herr
  cases effect with
  | fails => rfl
  | init | char | final | primitive => simp at herr

theorem EventEffect.keeps_errorSticky {s t : State} {e : Event} (effect : EventEffect s e t) (h : ErrorSticky s) :
    ErrorSticky t := by
  cases effect with
  | reset => exact fun herr => by simp at herr
  | read | arg0 | arg1 | ignored => exact h
  | command v t effect => exact effect.errorSticky

/-- Settles O48: a command establishes the property anew, and no other input writes ERR or STICKY but reset, which
clears both. -/
theorem stepKeepsErrorSticky : Obligations.StepKeepsErrorSticky := fun _ _ hs hstep =>
  step_keeps (P := ErrorSticky) (fun _ _ h => h) (fun _ _ _ effect h => effect.keeps_errorSticky h) hs hstep

/-! ### LAST_XF is the transform of LAST_WORD at its position -/

/-- The invariant of O49 (10_state.md R36). -/
def LastTransformed (s : State) : Prop :=
  s.lastXf = transform s.lastWord (s.pos - 1#32).toNat ∨ (s.lastWord = 0#32 ∧ s.lastXf = 0#32)

/-- absorb_word establishes it: the word's position is the new POS less one (43_state_folder.md R153). -/
theorem lastTransformed_absorbWord (w : Word) (s : State) : LastTransformed (absorbWord w s) :=
  .inl (by simp)

theorem LastTransformed.pushByte {s : State} (b : Byte) (h : LastTransformed s) : LastTransformed (pushByte b s) := by
  by_cases hc : s.encCnt.val < 3
  · rw [pushByte_of_lt b hc]
    exact h
  · rw [pushByte_of_full b (by omega)]
    exact lastTransformed_absorbWord _ _

theorem LastTransformed.pushBytes {s : State} (bs : List Byte) (h : LastTransformed s) :
    LastTransformed (pushBytes bs s) := by
  induction bs generalizing s with
  | nil => exact h
  | cons b bs ih => exact ih (h.pushByte b)

theorem LastTransformed.flushEncoder {s : State} (h : LastTransformed s) : LastTransformed (flushEncoder s) := by
  by_cases hc : 0 < s.encCnt.val
  · rw [flushEncoder_of_pos hc]
    exact lastTransformed_absorbWord _ _
  · rwa [flushEncoder_of_zero (by omega)]

theorem CommandEffect.keeps_lastTransformed {s t : State} {v : Word} (effect : CommandEffect s v t)
    (h : LastTransformed s) : LastTransformed t := by
  cases effect with
  | fails | primitive => exact h
  | init => exact .inr ⟨rfl, rfl⟩
  | char _ bs => exact LastTransformed.pushBytes (s := succeed s) bs h
  | final => exact LastTransformed.flushEncoder (s := succeed s) h

theorem EventEffect.keeps_lastTransformed {s t : State} {e : Event} (effect : EventEffect s e t)
    (h : LastTransformed s) : LastTransformed t := by
  cases effect with
  | reset => exact .inr ⟨rfl, rfl⟩
  | read | arg0 | arg1 | ignored => exact h
  | command v t effect => exact effect.keeps_lastTransformed h

/-- Settles O49: only absorb_word writes LAST_WORD, LAST_XF and POS in a digest in progress, and it establishes the
property; INIT and reset clear all three. -/
theorem stepKeepsLastTransform : Obligations.StepKeepsLastTransform := fun _ _ hs hstep =>
  step_keeps (P := LastTransformed) (fun _ _ h => h) (fun _ _ _ effect h => effect.keeps_lastTransformed h) hs hstep

end Sys2Proof.Machine
end

section
/-! PROOFS. The code a command ends with (60_exceptions.md R191), and what a write to another offset changes: O7, O8. -/

namespace Sys2Proof.Machine

/-! ### The code of a decoded command -/

/-- The code a decoded command ends with in a phase (60_exceptions.md R191, in the order of R194). -/
def endCode (i : Instr) (p : Phase) : ErrCode :=
  match i with
  | .char cp => if p ≠ .absorb then .wrongPhase else if isScalar cp then .ok else .invalidChar
  | .final => if p ≠ .absorb then .wrongPhase else .ok
  | .init | .xform | .rotl | .rotr | .add => .ok

/-- A decoded command gives a next state, with its code in ERR; if the code is not 0 the state is that of the raised
error (60_exceptions.md R196). -/
theorem exec_ends_with_endCode (i : Instr) (s : State) :
    ∃ t, exec i s = .next t ∧ t.err = (endCode i s.phase).code ∧
      (endCode i s.phase ≠ .ok → t = raiseError (endCode i s.phase) s) := by
  cases i with
  | init | xform | rotl | rotr | add => exact ⟨_, rfl, rfl, fun h => absurd rfl h⟩
  | final =>
    refine ⟨_, rfl, ?_⟩
    by_cases hp : s.phase = .absorb
    · simp [inAbsorb_of_absorb hp, endCode, hp, ErrCode.code]
    · simp [inAbsorb_of_ne hp, endCode, hp]
  | char cp =>
    refine ⟨_, rfl, ?_⟩
    by_cases hp : s.phase = .absorb
    · cases hs : isScalar cp <;> simp [inAbsorb_of_absorb hp, encodeChar, endCode, hp, hs, ErrCode.code]
    · simp [inAbsorb_of_ne hp, endCode, hp]

/-- IMM24 zero-extended is a scalar value exactly outside the ranges of INVALID_CHAR (41_word_encoder.md R117). -/
theorem isScalar_setWidth_eq_false {imm : BitVec 24} :
    isScalar (imm.setWidth 32) = false ↔ 0x10FFFF < imm.toNat ∨ (0xD800 ≤ imm.toNat ∧ imm.toNat ≤ 0xDFFF) := by
  have fits : imm.toNat % 2 ^ 32 = imm.toNat := Nat.mod_eq_of_lt (by omega)
  rw [isScalar, BitVec.toNat_setWidth, fits, Bool.and_eq_false_iff]
  simp [-Nat.reducePow]

/-- The spec's table of codes, on the decoder's two fields and the scalar test of CHAR. -/
theorem specErrorCode_eq (v : Word) (p : Phase) :
    specErrorCode v p =
      if ¬ (opcodeOf v).toNat ∈ [0x01, 0x02, 0x03, 0x10, 0x11, 0x12, 0x13] then 1#4
      else if (opcodeOf v).toNat ≠ 0x02 ∧ (immOf v).toNat ≠ 0 then 2#4
      else if ((opcodeOf v).toNat = 0x02 ∨ (opcodeOf v).toNat = 0x03) ∧ p ≠ .absorb then 4#4
      else if (opcodeOf v).toNat = 0x02 ∧ isScalar ((immOf v).setWidth 32) = false then 3#4
      else 0#4 := by
  simp only [isScalar_setWidth_eq_false]
  rfl

/-- The spec's table gives a value that does not decode the decoder's error. -/
theorem specErrorCode_of_decode_error {v : Word} {e : DecodeError} (h : decode v = .error e) (p : Phase) :
    specErrorCode v p = (decodeErrCode e).code := by
  rw [specErrorCode_eq]
  obtain ⟨rfl, hop⟩ | ⟨rfl, hop, himm⟩ := decode_error_cases h
  · exact if_pos hop
  · have not_char : (opcodeOf v).toNat ≠ 0x02 := fun h2 => by simp [h2] at hop
    have imm_ne : (immOf v).toNat ≠ 0 := fun h0 => himm (BitVec.eq_of_toNat_eq h0)
    have known : (opcodeOf v).toNat ∈ [0x01, 0x02, 0x03, 0x10, 0x11, 0x12, 0x13] := by simp_all
    rw [if_neg (not_not.mpr known), if_pos ⟨not_char, imm_ne⟩]
    rfl

/-- The spec's table gives a value that decodes the code of its command. -/
theorem specErrorCode_of_decode_ok {v : Word} {i : Instr} (h : decode v = .ok i) (p : Phase) :
    specErrorCode v p = (endCode i p).code := by
  rw [specErrorCode_eq]
  obtain ⟨hop, himm, rfl⟩ | ⟨hop, rfl⟩ | ⟨hop, himm, rfl⟩ | ⟨hop, himm, rfl⟩ | ⟨hop, himm, rfl⟩ |
    ⟨hop, himm, rfl⟩ | ⟨hop, himm, rfl⟩ := decode_ok_cases h
  case inr.inl =>
    by_cases hp : p = .absorb
    · cases hs : isScalar ((immOf v).setWidth 32) <;> simp [endCode, hop, hp, hs, ErrCode.code]
    · simp [endCode, hop, hp, ErrCode.code]
  case inr.inr.inl =>
    by_cases hp : p = .absorb <;> simp [endCode, hop, himm, hp, ErrCode.code]
  all_goals simp [endCode, hop, himm, ErrCode.code]

/-- Every value written to CMD gives a next state with the spec's code in ERR; if the code is not 0 the state is that of
the raised error (60_exceptions.md R191, R196). -/
theorem executeCommand_ends_with_code (v : Word) (s : State) :
    ∃ e t, executeCommand v s = .next t ∧ specErrorCode v s.phase = ErrCode.code e ∧ t.err = e.code ∧
      (e ≠ .ok → t = raiseError e s) := by
  cases hd : decode v with
  | error e =>
    exact ⟨_, _, executeCommand_of_decode_error hd s, specErrorCode_of_decode_error hd _, rfl, fun _ => rfl⟩
  | ok i =>
    obtain ⟨t, hx, herr, hraise⟩ := exec_ends_with_endCode i s
    exact ⟨_, t, (executeCommand_of_decode_ok hd s).trans hx, specErrorCode_of_decode_ok hd _, herr, hraise⟩

/-! ### Writes to the other offsets -/

/-- A write to another offset than CMD changes at most ARG0 and ARG1 (20_memory.md R65). -/
theorem hostWrite_not_cmd {off : Nat} {v : Word} {s t : State} (hoff : off ≠ 0x00) (h : hostWrite off v s = .next t) :
    ∃ a b, t = { s with arg0 := a, arg1 := b } := by
  obtain ⟨hr, -⟩ | ⟨-, rfl⟩ | ⟨-, rfl⟩ | ⟨-, -, -, rfl⟩ := hostWrite_cases h
  · exact absurd (regAt_cmd.mp hr) hoff
  · exact ⟨_, _, rfl⟩
  · exact ⟨_, _, rfl⟩
  · exact ⟨_, _, rfl⟩

/-! ### The obligations -/

/-- Settles O7: decoder and commands end with the code of the spec's table, a code other than 0 with the raised error,
and a write elsewhere changes at most ARG0 and ARG1. -/
theorem everyCommandEndsWithItsCode : Obligations.EveryCommandEndsWithItsCode := by
  intro v s
  constructor
  · obtain ⟨e, t, hx, hspec, herr, hraise⟩ := executeCommand_ends_with_code v s
    refine ⟨t, hx, herr.trans hspec.symm, herr ▸ errCode_code_le e, fun hne => ?_⟩
    rw [hspec]
    exact hraise fun hok => hne (by rw [herr, hok]; rfl)
  · intro off t hoff hw
    obtain ⟨a, b, rfl⟩ := hostWrite_not_cmd hoff hw
    rfl

/-- Among the commands only INIT clears STICKY (10_state.md R29). -/
theorem CommandEffect.init_of_sticky_cleared {s t : State} {v : Word} (effect : CommandEffect s v t)
    (hs : s.sticky = true) (ht : t.sticky = false) : v = 0x00000001#32 := by
  cases effect with
  | init => rfl
  | fails | char | final | primitive => simp [hs] at ht

/-- A command that sets STICKY ended with a code (10_state.md R29). -/
theorem CommandEffect.err_of_sticky_set {s t : State} {v : Word} (effect : CommandEffect s v t)
    (hs : s.sticky = false) (ht : t.sticky = true) : t.err ≠ 0#4 := by
  cases effect with
  | fails _ e notOk => cases e <;> simp_all [ErrCode.code]
  | init | char | final | primitive => simp [hs] at ht

/-- Settles O8: of the inputs only commands and reset write STICKY; a failure sets it with its code, INIT and reset
clear it. -/
theorem stickySetByFailureClearedByInit : Obligations.StickySetByFailureClearedByInit := by
  intro e s t h
  cases eventEffect_of_serveEvent h with
  | reset => simp
  | read | arg0 | arg1 => simp_all
  | ignored off v notCmd => simp_all
  | command v t effect =>
    refine ⟨fun hs ht => .inr ?_, fun _ _ => effect.errorSticky, fun hs ht => ⟨v, rfl, effect.err_of_sticky_set hs ht⟩⟩
    rw [effect.init_of_sticky_cleared hs ht]

end Sys2Proof.Machine
end

section
/-! PROOFS. The register map and the fields of STATUS and ENC: O33, O34, O35, O39. -/

namespace Sys2Proof.Machine

/-! ### Reads and writes at an offset -/

/-- The gaps of the map hold no register (10_state.md R22). -/
theorem regAt_reserved {off : Nat} (h : (0x28 ≤ off ∧ off ≤ 0x3C) ∨ 0xA0 ≤ off) : regAt off = .reserved := by
  have above : ∀ n, n ≤ 0x24 → off ≠ n := by omega
  simp only [regAt, above, Nat.reduceLeDiff, if_false]
  unfold bankAt
  split_ifs with h40 h60 hA0
  · rfl
  · omega
  · omega
  · rfl

theorem hostRead_state (k : Fin 8) (s : State) : hostRead (0x40 + 4 * k.val) s = s.slot k := by
  rw [hostRead, regAt_state, readReg]

theorem hostRead_digest (k : Fin 16) (s : State) : hostRead (0x60 + 4 * k.val) s = digestWord k s := by
  rw [hostRead, regAt_digest, readReg]

/-- A write to a register the host cannot write has no effect (10_state.md R23). -/
theorem hostWrite_ignored {off : Nat} (notCmd : off ≠ 0x00) (notArg0 : off ≠ 0x08) (notArg1 : off ≠ 0x0C) (v : Word)
    (s : State) : hostWrite off v s = .next s := by
  unfold hostWrite
  split <;> rename_i hr
  · exact absurd (regAt_cmd.mp hr) notCmd
  · exact absurd (regAt_arg0.mp hr) notArg0
  · exact absurd (regAt_arg1.mp hr) notArg1
  all_goals rfl

/-- Settles O33: each named offset reads its register by the map, the gaps read 0, and a write to an offset that is not
CMD, ARG0 or ARG1 has no effect. -/
theorem registerMapReadsAndWrites : Obligations.RegisterMapReadsAndWrites := by
  intro s
  refine ⟨rfl, rfl, rfl, rfl, rfl, ?posm31, rfl, rfl, rfl, fun k => hostRead_state k s, fun k => hostRead_digest k s,
    ?zeros, fun v => ⟨rfl, rfl, rfl⟩, fun off v _ _ h0 h8 hC => hostWrite_ignored h0 h8 hC v s⟩
  case posm31 =>
    have := s.posm31.isLt
    exact Nat.mod_eq_of_lt (by omega)
  case zeros =>
    rintro off - - (rfl | gap)
    · rfl
    · rw [hostRead, regAt_reserved gap, readReg]

/-! ### STATUS -/

/-- STATUS bit by bit: ERR, PHASE, two zeros, STICKY, zeros (10_state.md R26). -/
theorem getLsbD_statusWord (s : State) (i : Nat) :
    (statusWord s).getLsbD i =
      if i < 4 then s.err.getLsbD i
      else if i < 6 then s.phase.code.getLsbD (i - 4)
      else i == 8 && s.sticky := by
  simp only [statusWord, BitVec.getLsbD_setWidth, BitVec.getLsbD_append, BitVec.getLsbD_ofBool, BitVec.getLsbD_zero]
  rcases Nat.lt_or_ge i 4 with h4 | h4
  · simp [h4, show i < 32 by omega]
  rcases Nat.lt_or_ge i 6 with h6 | h6
  · simp [h4.not_gt, h6, show i - 4 < 2 by omega, show i < 32 by omega]
  rcases Nat.lt_or_ge i 8 with h8 | h8
  · simp [h4.not_gt, h6.not_gt, show ¬ i - 4 < 2 by omega, show i - 4 - 2 < 2 by omega, h8.ne]
  · have sticky_place : i - 4 - 2 - 2 = 0 ↔ i = 8 := by omega
    by_cases hi : i = 8 <;>
      simp [h4.not_gt, h6.not_gt, sticky_place, hi, show ¬ i - 4 < 2 by omega, show ¬ i - 4 - 2 < 2 by omega]

theorem statusWord_err (s : State) : (statusWord s).extractLsb' 0 4 = s.err := by
  ext i hi
  rw [BitVec.getElem_extractLsb', getLsbD_statusWord, if_pos (by omega), Nat.zero_add, BitVec.getLsbD_eq_getElem hi]

theorem statusWord_phase (s : State) : (statusWord s).extractLsb' 4 2 = s.phase.code := by
  ext i hi
  rw [BitVec.getElem_extractLsb', getLsbD_statusWord, if_neg (by omega), if_pos (by omega), Nat.add_sub_cancel_left,
    BitVec.getLsbD_eq_getElem hi]

/-- The fields of zeros (10_state.md R26). -/
theorem statusWord_zeros (s : State) {start len : Nat} (above : 6 ≤ start) (without : start + len ≤ 8 ∨ 9 ≤ start) :
    (statusWord s).extractLsb' start len = 0#len := by
  ext i hi
  have not_sticky : start + i ≠ 8 := by omega
  rw [BitVec.getElem_extractLsb', getLsbD_statusWord, if_neg (by omega), if_neg (by omega)]
  simp [not_sticky]

theorem statusWord_sticky (s : State) : (statusWord s).getLsbD 8 = s.sticky := by
  rw [getLsbD_statusWord]
  simp

/-- PHASE's two bits as a number (10_state.md R27). -/
theorem hostRead_status_phase (s : State) :
    ((hostRead 0x04 s).extractLsb' 4 2).toNat = (match s.phase with | .idle => 0 | .absorb => 1 | .done => 2) := by
  rw [show hostRead 0x04 s = statusWord s from rfl, statusWord_phase]
  cases s.phase <;> rfl

/-- Settles O34: STATUS bit by bit, `Inv`'s bound on ERR, and a write elsewhere than to CMD changes at most ARG0 and
ARG1, which STATUS does not show. -/
theorem statusFields : Obligations.StatusFields := by
  intro s
  refine ⟨statusWord_err s, hostRead_status_phase s, statusWord_zeros s (by omega) (by omega), statusWord_sticky s,
    statusWord_zeros s (by omega) (by omega), fun h => ?_, fun off v t hoff hw => ?_⟩
  · exact (congrArg BitVec.toNat (statusWord_err s)).trans_le h.errCode
  · obtain ⟨a, b, rfl⟩ := hostWrite_not_cmd hoff hw
    rfl

/-! ### ENC -/

/-- ENC bit by bit: ENC_BUF, then ENC_CNT (10_state.md R35). -/
theorem getLsbD_encWord (s : State) (i : Nat) :
    (encWord s).getLsbD i = if i < 24 then s.encBuf.getLsbD i else (BitVec.ofNat 2 s.encCnt.val).getLsbD (i - 24) := by
  simp only [encWord, BitVec.getLsbD_setWidth, BitVec.getLsbD_append]
  split
  · next h => simp [show i < 32 by omega]
  · next h =>
    by_cases hi : i < 32
    · simp [hi]
    · rw [BitVec.getLsbD_of_ge (BitVec.ofNat 2 s.encCnt.val) (i - 24) (by omega), Bool.and_false]

/-- A field inside the low 24 bits of ENC is that field of ENC_BUF. -/
theorem extractLsb'_encWord (s : State) {start len : Nat} (h : start + len ≤ 24) :
    (encWord s).extractLsb' start len = s.encBuf.extractLsb' start len := by
  ext i hi
  rw [BitVec.getElem_extractLsb', BitVec.getElem_extractLsb', getLsbD_encWord, if_pos (by omega)]

theorem encWord_encCnt (s : State) : (encWord s).extractLsb' 24 2 = BitVec.ofNat 2 s.encCnt.val := by
  ext i hi
  rw [BitVec.getElem_extractLsb', getLsbD_encWord, if_neg (by omega), Nat.add_sub_cancel_left,
    BitVec.getLsbD_eq_getElem hi]

theorem encWord_zeros (s : State) : (encWord s).extractLsb' 26 6 = 0#6 := by
  ext i hi
  rw [BitVec.getElem_extractLsb', getLsbD_encWord, if_neg (by omega), BitVec.getLsbD_of_ge _ _ (by omega),
    BitVec.getElem_zero]

/-- The `k`-th pending byte is byte `k` of ENC_BUF (10_state.md R35). -/
theorem pendingBytes_getElem? (s : State) {k : Nat} (h : k < s.encCnt.val) :
    (pendingBytes s)[k]? = some (s.encBuf.extractLsb' (16 - 8 * k) 8) := by
  simp [pendingBytes, h]

/-- Settles O35: ENC bit by bit; a byte of the low 24 bits is a byte of ENC_BUF, pending or padding. -/
theorem encRegisterFields : Obligations.EncRegisterFields := by
  intro s
  rw [show hostRead 0x1C s = encWord s from rfl]
  refine ⟨?count, ?buffer, encWord_zeros s, ?held, ?padding⟩
  case count =>
    rw [encWord_encCnt]
    exact Nat.mod_eq_of_lt s.encCnt.isLt
  case buffer =>
    rw [extractLsb'_encWord s (by omega), BitVec.extractLsb'_eq_self]
  case held =>
    intro k hk
    rw [extractLsb'_encWord s (by omega), pendingBytes_getElem? s hk]
  case padding =>
    intro h k hk hk3
    rw [extractLsb'_encWord s (by omega)]
    exact h.encPadding ⟨k, hk3⟩ hk

/-! ### Reset -/

/-- DIGESTk shows STATE only (44_finalizer_hex.md R184). -/
theorem digestWord_congr {s t : State} (h : t.state = s.state) (k : Fin 16) : digestWord k t = digestWord k s := by
  simp only [digestWord, State.slot, h]

/-- Settles O39: every field by its reset value, STATUS and DIGEST from those. -/
theorem resetValues : Obligations.ResetValues := by
  intro s
  refine ⟨rfl, rfl, rfl, fun k => ?slots, rfl, rfl, rfl, rfl, rfl, rfl, rfl, rfl, rfl, ?status,
    fun k => ?digest⟩
  case slots => simp [State.slot, Vector.get_eq_getElem]
  case status => exact (by decide : statusWord State.reset = 0#32)
  case digest =>
    rw [hostRead_digest, digestWord_congr (s := State.reset) (t := platformReset s) rfl]
    revert k
    decide

end Sys2Proof.Machine
end

section
/-! PROOFS. Which inputs can change PHASE, ARG0 and ARG1, RESULT and STATE: O42, O43, O45, O46. -/

namespace Sys2Proof.Machine

/-- Only INIT and FINAL in ABSORB change PHASE (10_state.md R27). -/
theorem CommandEffect.phase_changed {s t : State} {v : Word} (effect : CommandEffect s v t) (h : t.phase ≠ s.phase) :
    (v = 0x00000001#32 ∧ t.phase = .absorb) ∨ (v = 0x00000003#32 ∧ s.phase = .absorb ∧ t.phase = .done) := by
  cases effect with
  | init => exact .inl ⟨rfl, rfl⟩
  | final inPhase => exact .inr ⟨rfl, inPhase, rfl⟩
  | fails | char | primitive => simp at h

/-- Settles O42: reads and register writes leave PHASE, and of the commands INIT and FINAL change it. -/
theorem phaseChangesOnlyByInitFinalReset : Obligations.PhaseChangesOnlyByInitFinalReset := by
  refine ⟨hostRead_status_phase, fun e s t h hphase => ?_⟩
  cases eventEffect_of_serveEvent h with
  | reset => exact .inr (.inr ⟨rfl, rfl⟩)
  | read | arg0 | arg1 | ignored => exact absurd rfl hphase
  | command v t effect =>
    obtain ⟨rfl, ht⟩ | ⟨rfl, hs, ht⟩ := effect.phase_changed hphase
    · exact .inl ⟨rfl, ht⟩
    · exact .inr (.inl ⟨rfl, hs, ht⟩)

/-- No command writes ARG0 or ARG1 (10_state.md R30). -/
theorem CommandEffect.sameArgs {s t : State} {v : Word} (effect : CommandEffect s v t) : SameArgs s t := by
  cases effect with
  | fails | init | char | final | primitive => exact ⟨by simp, by simp⟩

/-- Settles O43: a write to ARG0 or ARG1 sets that register only, and commands and reads set neither. -/
theorem operandsChangeOnlyByHostWrites : Obligations.OperandsChangeOnlyByHostWrites := by
  intro e s t h
  cases eventEffect_of_serveEvent h with
  | reset => simp
  | read => simp
  | arg0 v => simp
  | arg1 v => simp
  | ignored off v _ notArg0 notArg1 => simp [notArg0, notArg1]
  | command v t effect => simp [effect.sameArgs.arg0, effect.sameArgs.arg1]

/-- Only the four primitives write RESULT, and they end with code 0 (10_state.md R31). -/
theorem CommandEffect.result_changed {s t : State} {v : Word} (effect : CommandEffect s v t)
    (h : t.result ≠ s.result) : IsPrimitiveWord v ∧ t.err = 0#4 := by
  cases effect with
  | primitive _ _ isPrimitive => exact ⟨isPrimitive, rfl⟩
  | fails | init | char | final => simp at h

/-- Settles O45: reads and register writes leave RESULT, and of the commands only a primitive writes it. -/
theorem resultWrittenOnlyByPrimitives : Obligations.ResultWrittenOnlyByPrimitives := by
  refine fun e s t h => ⟨rfl, fun hresult => ?_⟩
  cases eventEffect_of_serveEvent h with
  | reset => exact .inl rfl
  | read | arg0 | arg1 | ignored => exact absurd rfl hresult
  | command v t effect =>
    obtain ⟨isPrimitive, herr⟩ := effect.result_changed hresult
    exact .inr ⟨by simpa [IsPrimitiveWord] using isPrimitive, herr⟩

/-- Only INIT, and FINAL and CHAR in ABSORB, write STATE (10_state.md R32). -/
theorem CommandEffect.state_changed {s t : State} {v : Word} (effect : CommandEffect s v t) (h : t.state ≠ s.state) :
    v = 0x00000001#32 ∨ (s.phase = .absorb ∧ (v = 0x00000003#32 ∨ v &&& 0xFF#32 = 0x02#32)) := by
  cases effect with
  | init => exact .inl rfl
  | final inPhase => exact .inr ⟨inPhase, .inl rfl⟩
  | char _ _ isChar inPhase => exact .inr ⟨inPhase, .inr isChar⟩
  | fails | primitive => simp at h

/-- Settles O46: reads and register writes leave STATE, and of the commands only those of the digest write it. -/
theorem stateWrittenOnlyByDigestCommands : Obligations.StateWrittenOnlyByDigestCommands := by
  refine fun e s t h => ⟨fun k => hostRead_state k s, fun hstate => ?_⟩
  cases eventEffect_of_serveEvent h with
  | reset => exact .inl rfl
  | read | arg0 | arg1 | ignored => exact absurd rfl hstate
  | command v t effect =>
    obtain rfl | ⟨hp, rfl | isChar⟩ := effect.state_changed hstate
    · exact .inr (.inl rfl)
    · exact .inr (.inr ⟨hp, .inl rfl⟩)
    · exact .inr (.inr ⟨hp, .inr ⟨v, rfl, isChar⟩⟩)

end Sys2Proof.Machine
end

section
/-! PROOFS. What commands ignore: the digest commands the operand registers and RESULT (O44), every command the host's
side (O50). -/

namespace Sys2Proof.Machine

/-- What the digest commands neither read nor write: ARG0, ARG1, RESULT (10_state.md R30, R31), and the model's own
fields (log entries 1 and 2). -/
structure Outside where
  arg0 : Word
  arg1 : Word
  result : Word
  pending : List Event
  readValues : List Word

/-- The outside part of a state. -/
def State.outside (s : State) : Outside := ⟨s.arg0, s.arg1, s.result, s.pending, s.readValues⟩

/-- The state with another outside part. -/
def State.withOutside (o : Outside) (s : State) : State :=
  { s with arg0 := o.arg0, arg1 := o.arg1, result := o.result, pending := o.pending, readValues := o.readValues }

@[simp] theorem outside_withOutside (o : Outside) (s : State) : (s.withOutside o).outside = o := rfl

@[simp] theorem withOutside_outside (s : State) : s.withOutside s.outside = s := rfl

/-! ### The encoder and the digest commands see the rest of the state only -/

theorem pushByte_withOutside (o : Outside) (b : Byte) (s : State) :
    pushByte b (s.withOutside o) = (pushByte b s).withOutside o := by
  by_cases hc : s.encCnt.val < 3
  · rw [pushByte_of_lt b hc, pushByte_of_lt (s := s.withOutside o) b hc]
    rfl
  · have full : s.encCnt.val = 3 := by omega
    rw [pushByte_of_full b full, pushByte_of_full (s := s.withOutside o) b full]
    rfl

theorem pushBytes_withOutside (o : Outside) (bs : List Byte) (s : State) :
    pushBytes bs (s.withOutside o) = (pushBytes bs s).withOutside o := by
  induction bs generalizing s with
  | nil => rfl
  | cons b bs ih => rw [pushBytes_cons, pushByte_withOutside, ih, pushBytes_cons]

theorem flushEncoder_withOutside (o : Outside) (s : State) :
    flushEncoder (s.withOutside o) = (flushEncoder s).withOutside o := by
  by_cases hc : 0 < s.encCnt.val
  · rw [flushEncoder_of_pos hc, flushEncoder_of_pos (s := s.withOutside o) hc]
    rfl
  · have empty : s.encCnt.val = 0 := by omega
    rw [flushEncoder_of_zero empty, flushEncoder_of_zero (s := s.withOutside o) empty]

theorem encodeChar_withOutside (o : Outside) (cp : Word) (s : State) :
    encodeChar cp (s.withOutside o) = (encodeChar cp s).withOutside o := by
  unfold encodeChar
  split
  · exact pushBytes_withOutside o (utf8 cp) (succeed s)
  · rfl

theorem finishDigest_withOutside (o : Outside) (s : State) :
    finishDigest (s.withOutside o) = (finishDigest s).withOutside o := by
  have flushed : flushEncoder (succeed (s.withOutside o)) = (flushEncoder (succeed s)).withOutside o :=
    flushEncoder_withOutside o (succeed s)
  rw [finishDigest, flushed]
  rfl

/-- An effect in ABSORB that ignores the outside part ignores it in every phase: PHASE is not in it. -/
theorem inAbsorb_withOutside {f : State → State} {o : Outside} (hf : ∀ s, f (s.withOutside o) = (f s).withOutside o)
    (s : State) : inAbsorb f (s.withOutside o) = (inAbsorb f s).withOutside o := by
  by_cases hp : s.phase = .absorb
  · rw [inAbsorb_of_absorb hp, inAbsorb_of_absorb (s := s.withOutside o) hp, hf]
  · rw [inAbsorb_of_ne hp, inAbsorb_of_ne (s := s.withOutside o) hp]
    rfl

/-- The commands of a digest: INIT, FINAL and every CHAR. -/
def IsDigestCommand (i : Instr) : Prop := i = .init ∨ i = .final ∨ ∃ cp, i = .char cp

/-- A digest command does the same with any other outside part, and leaves that part. -/
theorem exec_withOutside {i : Instr} {s t : State} (hi : IsDigestCommand i) (h : exec i s = .next t) (o : Outside) :
    exec i (s.withOutside o) = .next (t.withOutside o) := by
  obtain rfl | rfl | ⟨cp, rfl⟩ := hi <;> injection h with h <;> subst h
  · rfl
  · exact congrArg Host.Outcome.next (inAbsorb_withOutside (finishDigest_withOutside o) s)
  · exact congrArg Host.Outcome.next (inAbsorb_withOutside (encodeChar_withOutside o cp) s)

/-- A digest command leaves the outside part: run with that part put in again it gives the same state. -/
theorem exec_keeps_outside {i : Instr} {s t : State} (hi : IsDigestCommand i) (h : exec i s = .next t) :
    t.outside = s.outside := by
  have again := exec_withOutside hi h s.outside
  rw [withOutside_outside, h] at again
  injection again with fixed
  rw [fixed, outside_withOutside]

/-- Settles O44: put other operands and another RESULT into the outside part, the host's side as it was. -/
theorem digestIgnoresOperands : Obligations.DigestIgnoresOperands := by
  intro i s t a b r hi h
  have others := exec_withOutside hi h { s.outside with arg0 := a, arg1 := b, result := r }
  refine others.trans ?_
  rw [← exec_keeps_outside hi h]
  rfl

/-- A digest command ignores the host's side and leaves it. -/
theorem digestCommand_ignores_host {i : Instr} {s t : State} (hi : IsDigestCommand i) (h : exec i s = .next t)
    (p : List Event) (r : List Word) :
    SameHost s t ∧
      exec i { s with pending := p, readValues := r } = .next { t with pending := p, readValues := r } := by
  have kept := exec_keeps_outside hi h
  refine ⟨⟨congrArg Outside.pending kept, congrArg Outside.readValues kept⟩, ?_⟩
  have others := exec_withOutside hi h { s.outside with pending := p, readValues := r }
  refine others.trans ?_
  rw [← kept]
  rfl

/-- Writing RESULT leaves the host's side, whatever stands there. -/
theorem writeResult_withHost (v : Word) (s : State) (p : List Event) (r : List Word) :
    writeResult v { s with pending := p, readValues := r } =
      { writeResult v s with pending := p, readValues := r } := rfl

/-- Settles O50: the digest commands by their outside part, the primitives by what they compute. -/
theorem commandsIgnoreTheHostSide : Obligations.CommandsIgnoreTheHostSide := by
  intro i s t p r h
  cases i with
  | init => exact digestCommand_ignores_host (.inl rfl) h p r
  | char cp => exact digestCommand_ignores_host (.inr (.inr ⟨cp, rfl⟩)) h p r
  | final => exact digestCommand_ignores_host (.inr (.inl rfl)) h p r
  | xform | rotl | rotr | add =>
    injection h with h
    subst h
    exact ⟨⟨writeResult_pending _ s, writeResult_readValues _ s⟩,
      congrArg Host.Outcome.next (writeResult_withHost _ s p r)⟩

end Sys2Proof.Machine
end

section
/-! PROOFS. The contract of an access and the frame of a read: O36, O37. -/

namespace Sys2Proof.Machine

/-! ### Accesses inside and outside the contract -/

/-- The contract as arithmetic on the access's width and offset (20_memory.md R64). -/
theorem Access.inContract_iff {a : Access} : a.inContract = true ↔ a.width = 32 ∧ a.off % 4 = 0 ∧ a.off < 0x100 := by
  simp [Access.inContract, and_assoc]

/-- The CORE refuses no write at any offset: a failed command is a next state too (60_exceptions.md R201). -/
theorem hostWrite_total (off : Nat) (v : Word) (s : State) : ∃ t, hostWrite off v s = .next t := by
  by_cases isCmd : off = 0x00
  · obtain ⟨-, t, hx, -⟩ := executeCommand_ends_with_code v s
    exact ⟨t, isCmd ▸ hx⟩
  by_cases isArg0 : off = 0x08
  · exact ⟨{ s with arg0 := v }, isArg0 ▸ rfl⟩
  by_cases isArg1 : off = 0x0C
  · exact ⟨{ s with arg1 := v }, isArg1 ▸ rfl⟩
  exact ⟨s, hostWrite_ignored isCmd isArg0 isArg1 v s⟩

/-- Inside the contract a read records the value at its offset (20_memory.md R65). -/
theorem serveAccess_read {a : Access} (byHost : a.agent = .host) (contract : a.inContract = true)
    (isRead : a.kind = .read) (s : State) : serveAccess a s = .next (recordRead (hostRead a.off s) s) := by
  simp [serveAccess, byHost, contract, isRead]

/-- Inside the contract a write is HostWrite at its offset (20_memory.md R65). -/
theorem serveAccess_write {a : Access} {v : Word} (byHost : a.agent = .host) (contract : a.inContract = true)
    (isWrite : a.kind = .write v) (s : State) : serveAccess a s = hostWrite a.off v s := by
  simp [serveAccess, byHost, contract, isWrite]

/-- An access inside the contract takes effect (20_memory.md R64). -/
theorem serveAccess_total {a : Access} (byHost : a.agent = .host) (contract : a.inContract = true) (s : State) :
    ∃ t, serveAccess a s = .next t := by
  cases hk : a.kind with
  | read => exact ⟨_, serveAccess_read byHost contract hk s⟩
  | write v =>
    rw [serveAccess_write byHost contract hk]
    exact hostWrite_total a.off v s

/-- Another agent's access, or one outside the contract, is refused (20_memory.md R64, R74). -/
theorem serveAccess_refused {a : Access} (h : a.agent = .host → a.inContract ≠ true) (s : State) :
    ∃ r, serveAccess a s = .refused r := by
  by_cases byHost : a.agent = .host
  · exact ⟨.outsideContract, by rw [serveAccess, if_neg (not_not.mpr byHost), if_pos (by simp [h byHost])]⟩
  · exact ⟨.secondHost, if_pos byHost⟩

/-- Settles O36: the port's two checks are the contract, and behind them neither a read nor a write is refused. -/
theorem onlyContractAccessesTakeEffect : Obligations.OnlyContractAccessesTakeEffect := by
  intro a s
  simp only [← Access.inContract_iff]
  refine ⟨⟨?admitted, ?takesEffect⟩, ?refused⟩
  case admitted =>
    rintro ⟨t, h⟩
    obtain ⟨byHost, contract, -⟩ := serveAccess_cases h
    exact ⟨byHost, contract⟩
  case takesEffect => exact fun ⟨byHost, contract⟩ => serveAccess_total byHost contract s
  case refused => exact fun h => serveAccess_refused (not_and.mp h) s

/-! ### Reads -/

/-- A register reads as the CORE's fields say, whatever the host's side (20_memory.md R65). -/
theorem readReg_congr {s t : State} (h : SameCore s t) (r : Reg) : readReg r t = readReg r s := by
  obtain ⟨args, result, digest, phase, err, sticky⟩ := h
  cases r with
  | cmd | reserved => rfl
  | status => simp only [readReg, statusWord, sticky, phase, err]
  | arg0 => exact args.arg0
  | arg1 => exact args.arg1
  | result => exact result
  | pos => exact digest.pos
  | posm31 => simp only [readReg, digest.posm31]
  | enc => simp only [readReg, encWord, digest.encCnt, digest.encBuf]
  | lastWord => exact digest.lastWord
  | lastXf => exact digest.lastXf
  | state k => simp only [readReg, State.slot, digest.state]
  | digest k => exact digestWord_congr digest.state k

/-- Every offset reads the same in states with the same registers (20_memory.md R66). -/
theorem hostRead_congr {s t : State} (h : SameCore s t) (off : Nat) : hostRead off t = hostRead off s :=
  readReg_congr h (regAt off)

/-- Recording a value read is on the host's side only (log entry 2). -/
theorem recordRead_sameCore (v : Word) (s : State) : SameCore s (recordRead v s) where
  args := ⟨rfl, rfl⟩
  result := rfl
  digest := ⟨rfl, rfl, rfl, rfl, rfl, rfl, rfl⟩
  phase := rfl
  err := rfl
  sticky := rfl

/-- An admitted read records the register's value and does nothing else (20_memory.md R65). -/
theorem serveEvent_rd {off : Nat} (aligned : off % 4 = 0) (inSpace : off < 0x100) (s : State) :
    serveEvent (rd off) s = .next (recordRead (hostRead off s) s) :=
  serveAccess_read rfl (Access.inContract_iff.mpr ⟨rfl, aligned, inSpace⟩) rfl s

/-- Settles O37: a read only records its value, so the registers stay, and an offset reads as they say. -/
theorem readsHaveNoSideEffect : Obligations.ReadsHaveNoSideEffect := by
  intro off s aligned inSpace
  have kept : SameCore s (recordRead (hostRead off s) s) := recordRead_sameCore _ s
  exact ⟨_, serveEvent_rd aligned inSpace s, kept, rfl, rfl, hostRead_congr kept⟩

end Sys2Proof.Machine
end

section
/-! PROOFS. Decoder and encoder against each other and against the table of 30_encoding.md R84: O1, O3, O4, O5. -/

namespace Sys2Proof

/-! ### The decoder as the inverse of the encoder -/

/-- The decoder answers well-formed commands only: CHAR's operand has 24 bits (30_encoding.md R83). -/
theorem wf_of_decode_ok {v : Word} {i : Instr} (h : decode v = .ok i) : i.wf = true := by
  obtain ⟨-, -, rfl⟩ | ⟨-, rfl⟩ | ⟨-, -, rfl⟩ | ⟨-, -, rfl⟩ | ⟨-, -, rfl⟩ | ⟨-, -, rfl⟩ | ⟨-, -, rfl⟩ :=
    decode_ok_cases h
  case inr.inl =>
    have imm_lt : (immOf v).toNat < 2 ^ 24 := (immOf v).isLt
    simp only [Instr.wf, BitVec.toNat_setWidth, decide_eq_true_eq]
    omega
  all_goals rfl

/-- A value decodes to a command exactly when the command is well-formed and the value is its encoding (R84, D7). -/
theorem decode_eq_ok_iff {v : Word} {i : Instr} : decode v = .ok i ↔ i.wf = true ∧ encode i = v :=
  ⟨fun h => ⟨wf_of_decode_ok h, encode_of_decode_ok h⟩, fun ⟨hwf, henc⟩ => henc ▸ decode_encode hwf⟩

/-- Settles O3: `decode` inverts `encode` on the well-formed commands. -/
theorem decodeEncodeRoundTrip : Obligations.DecodeEncodeRoundTrip := fun _ hwf => decode_encode hwf

/-- Settles O4: the other direction of `decode_eq_ok_iff`. -/
theorem decodedWordIsItsEncoding : Obligations.DecodedWordIsItsEncoding := fun _ _ h => decode_eq_ok_iff.mp h

/-! ### Match and mask -/

/-- IMM24 is the value without its low byte (30_encoding.md R82). -/
theorem immOf_toNat (v : Word) : (immOf v).toNat = v.toNat / 2 ^ 8 := by
  have v_lt : v.toNat < 2 ^ 32 := v.isLt
  rw [immOf, BitVec.extractLsb'_toNat, Nat.shiftRight_eq_div_pow]
  omega

/-- A CHAR is known by its OPCODE alone, and its operand is IMM24 zero-extended (30_encoding.md R83, R85). -/
theorem decode_eq_char_iff {v cp : Word} :
    decode v = .ok (.char cp) ↔ opcodeOf v = 0x02#8 ∧ cp = (immOf v).setWidth 32 := by
  constructor
  · intro h
    simpa using decode_ok_cases h
  · rintro ⟨hop, rfl⟩
    simp [decode, hop]

/-- The mask 0x000000FF selects OPCODE (30_encoding.md R82, R84). -/
theorem opcodeOf_eq_iff_and {v : Word} {op : BitVec 8} : opcodeOf v = op ↔ v &&& 0x000000FF#32 = op.setWidth 32 := by
  have low_byte : v &&& 0x000000FF#32 = (opcodeOf v).setWidth 32 := by
    apply BitVec.eq_of_toNat_eq
    have mask_low : v.toNat &&& 255 = v.toNat % 2 ^ 8 := Nat.and_two_pow_sub_one_eq_mod v.toNat 8
    have byte_fits : v.toNat % 256 % 4294967296 = v.toNat % 256 := Nat.mod_eq_of_lt (by omega)
    simp [opcodeOf, BitVec.extractLsb'_toNat, mask_low, byte_fits]
  rw [low_byte]
  refine ⟨congrArg _, fun h => ?_⟩
  simpa [BitVec.setWidth_setWidth_of_le] using congrArg (BitVec.setWidth 8) h

/-- Settles O1: a format-N row's mask keeps every bit, so its match value is the command's only word; CHAR's mask keeps
OPCODE. -/
theorem opcodeMapMatchesTable : Obligations.OpcodeMapMatchesTable := by
  intro v
  have only_word {i : Instr} (hwf : i.wf = true) : decode v = .ok i ↔ v = encode i := by
    rw [decode_eq_ok_iff, and_iff_right hwf, eq_comm]
  refine ⟨?init, ?char, only_word rfl, only_word rfl, only_word rfl, only_word rfl, only_word rfl, ?operand⟩
  case init =>
    have all_bits : v &&& 0xFFFFFFFF#32 = v := BitVec.and_allOnes
    rw [all_bits]
    exact only_word rfl
  case char =>
    simp only [decode_eq_char_iff, exists_and_left, exists_eq, and_true]
    exact opcodeOf_eq_iff_and
  case operand =>
    intro cp h
    obtain ⟨-, rfl⟩ := decode_eq_char_iff.mp h
    rw [BitVec.toNat_setWidth_of_le (by omega), immOf_toNat]

/-- Settles O5, by running the decoder on each of the words. -/
theorem specWordsDecode : Obligations.SpecWordsDecode := by
  unfold Obligations.SpecWordsDecode
  decide

end Sys2Proof
end

section
/-! PROOFS. `execute_command`: the values that fail (30_encoding.md R85) and the order of its checks (R87): O2, O6. -/

namespace Sys2Proof.Machine

/-! ### Failing values -/

/-- A value whose code is not 0 raises that code: nothing but ERR and STICKY changes (60_exceptions.md R196). -/
theorem executeCommand_of_specErrorCode {v : Word} {s : State} {c : BitVec 4} (hc : specErrorCode v s.phase = c)
    (fails : c ≠ 0#4) : executeCommand v s = .next { s with err := c, sticky := true } := by
  subst hc
  obtain ⟨e, t, hx, hspec, -, hraise⟩ := executeCommand_ends_with_code v s
  have notOk : e ≠ .ok := fun hok => fails (by rw [hspec, hok]; rfl)
  rw [hx, hraise notOk, hspec]
  rfl

/-- Settles O2: the ranges of OPCODE and IMM24 give the codes 1, 2 and 3 of the spec's table. -/
theorem illegalAndReservedEncodingsFail : Obligations.IllegalAndReservedEncodingsFail := by
  intro v s op imm
  have decode_char (hop : op = 0x02) : decode v = .ok (.char ((immOf v).setWidth 32)) :=
    decode_eq_char_iff.mpr ⟨BitVec.eq_of_toNat_eq hop, rfl⟩
  refine ⟨?illegal, ?reserved, fun hop => ⟨⟨_, decode_char hop⟩, ?notScalar⟩⟩
  case illegal =>
    intro unmapped
    refine executeCommand_of_specErrorCode (if_pos ?_) (by decide)
    simp only [List.mem_cons, List.not_mem_nil, or_false]
    omega
  case reserved =>
    intro isFormatN himm
    have mapped : op ∈ [0x01, 0x02, 0x03, 0x10, 0x11, 0x12, 0x13] := by
      simp only [List.mem_cons, List.not_mem_nil, or_false]
      omega
    have not_char : op ≠ 0x02 := by omega
    refine executeCommand_of_specErrorCode ?_ (by decide)
    exact (if_neg (not_not.mpr mapped)).trans (if_pos ⟨not_char, himm⟩)
  case notScalar =>
    intro hp outside
    have hs : isScalar ((immOf v).setWidth 32) = false := isScalar_setWidth_eq_false.mpr outside
    refine executeCommand_of_specErrorCode ((specErrorCode_of_decode_ok (decode_char hop) _).trans ?_) (by decide)
    simp [endCode, hp, hs, ErrCode.code]

/-! ### The order of the checks -/

/-- CHAR's effect once every check has passed (30_encoding.md R87). -/
theorem exec_char_of_absorb_of_scalar {cp : Word} {s : State} (hp : s.phase = .absorb) (hs : isScalar cp = true) :
    exec (.char cp) s = .next (pushBytes (utf8 cp) (succeed s)) := by
  simp [exec, execChar, inAbsorb_of_absorb hp, encodeChar, hs]

/-- FINAL's effect once every check has passed (30_encoding.md R87). -/
theorem exec_final_of_absorb {s : State} (hp : s.phase = .absorb) : exec .final s = .next (finishDigest s) := by
  simp [exec, execFinal, inAbsorb_of_absorb hp]

/-- CHAR of a value that is no scalar value in phase ABSORB (30_encoding.md R87). -/
theorem exec_char_of_absorb_of_not_scalar {cp : Word} {s : State} (hp : s.phase = .absorb) (hs : isScalar cp = false) :
    exec (.char cp) s = .next (raiseError .invalidChar s) := by
  simp [exec, execChar, inAbsorb_of_absorb hp, encodeChar, hs]

/-- CHAR and FINAL outside phase ABSORB (30_encoding.md R87). -/
theorem exec_of_not_absorb {i : Instr} {s : State} (hi : i = .final ∨ ∃ cp, i = .char cp) (hp : s.phase ≠ .absorb) :
    exec i s = .next (raiseError .wrongPhase s) := by
  obtain rfl | ⟨cp, rfl⟩ := hi
  · simp [exec, execFinal, inAbsorb_of_ne hp]
  · simp [exec, execChar, inAbsorb_of_ne hp]

/-- Settles O6: an OPCODE outside the map and a reserved IMM24 are the decoder's errors; for each command the checks
before its own pass, and its effect is its arm of `exec`. -/
theorem commandDispatchOrder : Obligations.CommandDispatchOrder := by
  intro v s op imm s0
  cases hd : decode v with
  | error e =>
    rw [executeCommand_of_decode_error hd]
    obtain ⟨rfl, (hop : ¬ op.toNat ∈ _)⟩ | ⟨rfl, (hop : op.toNat ∈ _), (himm : imm ≠ 0#24)⟩ := decode_error_cases hd
    · refine (if_pos ?_).symm
      simpa [BitVec.toNat_eq] using hop
    · have mapped : op = 0x01#8 ∨ op = 0x03#8 ∨ op = 0x10#8 ∨ op = 0x11#8 ∨ op = 0x12#8 ∨ op = 0x13#8 := by
        simpa [BitVec.toNat_eq] using hop
      have not_char : op ≠ 0x02#8 := fun h => by simp [h] at mapped
      rw [if_neg (by tauto), if_pos ⟨not_char, himm⟩]
      rfl
  | ok i =>
    rw [executeCommand_of_decode_ok hd]
    obtain ⟨(hop : op = 0x01#8), (himm : imm = 0#24), rfl⟩ | ⟨(hop : op = 0x02#8), rfl⟩ |
      ⟨(hop : op = 0x03#8), (himm : imm = 0#24), rfl⟩ | ⟨(hop : op = 0x10#8), (himm : imm = 0#24), rfl⟩ |
      ⟨(hop : op = 0x11#8), (himm : imm = 0#24), rfl⟩ | ⟨(hop : op = 0x12#8), (himm : imm = 0#24), rfl⟩ |
      ⟨(hop : op = 0x13#8), (himm : imm = 0#24), rfl⟩ := decode_ok_cases hd
    case inr.inl =>
      by_cases hp : s.phase = .absorb
      · cases hs : isScalar (imm.setWidth 32) with
        | false =>
          refine (exec_char_of_absorb_of_not_scalar hp hs).trans ?_
          simp [hop, hp, raiseError_eq, ErrCode.code]
        | true =>
          refine (exec_char_of_absorb_of_scalar hp hs).trans ?_
          simp only [hop, hp]
          rfl
      · rw [exec_of_not_absorb (.inr ⟨_, rfl⟩) hp]
        simp [hop, hp, raiseError_eq, ErrCode.code]
    case inr.inr.inl =>
      by_cases hp : s.phase = .absorb
      · rw [exec_final_of_absorb hp]
        simp only [hop, himm, hp]
        rfl
      · rw [exec_of_not_absorb (.inl rfl) hp]
        simp [hop, himm, hp, raiseError_eq, ErrCode.code]
    case inr.inr.inr.inr.inr.inr =>
      rw [← add32_eq_add]
      simp only [hop, himm]
      rfl
    all_goals
      simp only [hop, himm]
      rfl

end Sys2Proof.Machine
end

section
/-! PROOFS. Rotation by any integer, bit by bit, and its laws (40_primitives.md R101 to R103, R108): O9, O13. -/

namespace Sys2Proof.Machine

/-! ### The bits of a word, counted around it -/

/-- Bit `i` of a word for any integer `i`, modulo 32. On these bits a rotation is a shift of the index, with no case for
the bits that wrap. -/
def cyclicBit (v : Word) (i : Int) : Bool := v.getLsbD (i % 32).toNat

theorem cyclicBit_natCast (v : Word) {j : Nat} (hj : j < 32) : cyclicBit v j = v.getLsbD j := by
  have index : ((j : Int) % 32).toNat = j := by omega
  rw [cyclicBit, index]

theorem cyclicBit_congr (v : Word) {i k : Int} (h : i % 32 = k % 32) : cyclicBit v i = cyclicBit v k := by
  rw [cyclicBit, h, cyclicBit]

/-- A word is known by its bits counted around it. -/
theorem eq_of_cyclicBit_eq {v w : Word} (h : ∀ i, cyclicBit v i = cyclicBit w i) : v = w := by
  apply BitVec.eq_of_getLsbD_eq
  intro j hj
  rw [← cyclicBit_natCast v hj, ← cyclicBit_natCast w hj, h]

@[simp] theorem cyclicBit_not (v : Word) (i : Int) : cyclicBit (~~~v) i = !cyclicBit v i := by
  simp [cyclicBit, emod32_toNat_lt i]

@[simp] theorem cyclicBit_xor (v w : Word) (i : Int) : cyclicBit (v ^^^ w) i = (cyclicBit v i ^^ cyclicBit w i) := by
  simp [cyclicBit]

/-- Rotation left by `n` moves bit `i - n` to bit `i` (40_primitives.md R101). -/
@[simp] theorem cyclicBit_rotl (v : Word) (n i : Int) : cyclicBit (rotl v n) i = cyclicBit v (i - n) := by
  have amount_lt := emod32_toNat_lt n
  have index_lt := emod32_toNat_lt i
  rw [cyclicBit, cyclicBit, rotl_eq_rotateLeft, BitVec.getLsbD_rotateLeft, Nat.mod_eq_of_lt amount_lt]
  by_cases wraps : (i % 32).toNat < (n % 32).toNat
  · have index : ((i - n) % 32).toNat = 32 - (n % 32).toNat + (i % 32).toNat := by omega
    simp [wraps, index]
  · have index : ((i - n) % 32).toNat = (i % 32).toNat - (n % 32).toNat := by omega
    simp [wraps, index, index_lt]

/-- Rotation right by `n` moves bit `i + n` to bit `i` (40_primitives.md R102). -/
@[simp] theorem cyclicBit_rotr (v : Word) (n i : Int) : cyclicBit (rotr v n) i = cyclicBit v (i + n) := by
  have amount_lt := emod32_toNat_lt n
  have index_lt := emod32_toNat_lt i
  rw [cyclicBit, cyclicBit, rotr_eq_rotateRight, BitVec.getLsbD_rotateRight, Nat.mod_eq_of_lt amount_lt]
  by_cases stays : (i % 32).toNat < 32 - (n % 32).toNat
  · have index : ((i + n) % 32).toNat = (n % 32).toNat + (i % 32).toNat := by omega
    simp [stays, index]
  · have index : ((i + n) % 32).toNat = (i % 32).toNat - (32 - (n % 32).toNat) := by omega
    simp [stays, index, index_lt]

theorem getLsbD_rotl (v : Word) (n : Int) {j : Nat} (hj : j < 32) :
    (rotl v n).getLsbD j = v.getLsbD (((j : Int) - n) % 32).toNat := by
  rw [← cyclicBit_natCast _ hj, cyclicBit_rotl, cyclicBit]

theorem getLsbD_rotr (v : Word) (n : Int) {j : Nat} (hj : j < 32) :
    (rotr v n).getLsbD j = v.getLsbD (((j : Int) + n) % 32).toNat := by
  rw [← cyclicBit_natCast _ hj, cyclicBit_rotr, cyclicBit]

/-! ### The laws of rotation -/

/-- The amount of a left rotation counts modulo 32. -/
theorem rotl_congr (v : Word) {n m : Int} (h : n % 32 = m % 32) : rotl v n = rotl v m := by
  rw [rotl, h, rotl]

/-- The amount of a right rotation counts modulo 32. -/
theorem rotr_congr (v : Word) {n m : Int} (h : n % 32 = m % 32) : rotr v n = rotr v m := by
  rw [rotr, h, rotr]

theorem rotl_emod (v : Word) (n : Int) : rotl v n = rotl v (n % 32) := rotl_congr v (Int.emod_emod n 32).symm

theorem rotr_emod (v : Word) (n : Int) : rotr v n = rotr v (n % 32) := rotr_congr v (Int.emod_emod n 32).symm

theorem rotl_zero (v : Word) : rotl v 0 = v := rfl

theorem rotr_zero (v : Word) : rotr v 0 = v := rfl

/-- A right rotation is a left rotation by the opposite amount. -/
theorem rotr_eq_rotl_neg (v : Word) (n : Int) : rotr v n = rotl v (-n) := by
  apply eq_of_cyclicBit_eq
  simp

/-- The amounts of successive left rotations add. -/
theorem rotl_rotl (v : Word) (n m : Int) : rotl (rotl v n) m = rotl v (n + m) := by
  apply eq_of_cyclicBit_eq
  intro i
  simp only [cyclicBit_rotl]
  congr 1
  omega

theorem rotr_rotl (v : Word) (n : Int) : rotr (rotl v n) n = v := by
  rw [rotr_eq_rotl_neg, rotl_rotl, Int.add_right_neg, rotl_zero]

theorem rotl_rotr (v : Word) (n : Int) : rotl (rotr v n) n = v := by
  rw [rotr_eq_rotl_neg, rotl_rotl, Int.add_left_neg, rotl_zero]

theorem rotl_not (v : Word) (n : Int) : rotl (~~~v) n = ~~~(rotl v n) := by
  apply eq_of_cyclicBit_eq
  simp

theorem rotl_xor (v w : Word) (n : Int) : rotl (v ^^^ w) n = rotl v n ^^^ rotl w n := by
  apply eq_of_cyclicBit_eq
  simp

/-- Settles O9: on the bits counted around the word, a rotation by the Euclidean remainder shifts the index by it. -/
theorem rotationBitsAndAddition : Obligations.RotationBitsAndAddition := by
  refine ⟨fun v n j hj => ⟨?left, ?right⟩, ?sum⟩
  case left =>
    rw [rotl_emod, getLsbD_rotl v _ hj]
  case right =>
    rw [rotr_emod, getLsbD_rotr v _ hj]
  case sum =>
    intro a b
    rw [add32_eq_add, BitVec.toNat_add]

/-- Settles O13: left rotations add their amounts and a right rotation is the opposite left one; the amounts of the other
laws agree modulo 32. -/
theorem rotationLaws : Obligations.RotationLaws := by
  intro v w n m
  have complement : rotl v n = rotr v ((32 - n % 32) % 32) := by
    rw [rotr_eq_rotl_neg]
    exact rotl_congr v (by omega)
  exact ⟨rotr_rotl v n, rotl_rotr v n, rotl_zero v, (rotl_emod v 32).trans (rotl_zero v), rotr_zero v,
    (rotr_emod v 32).trans (rotr_zero v), rotl_emod v n, complement, rotl_rotl v n m, rotl_not v n, rotl_xor v w n⟩

end Sys2Proof.Machine
end

section
/-! PROOFS. The commands ROTL, ROTR and ADD (40_primitives.md R104 to R106, R110): O10, O11, O12, O14. -/

namespace Sys2Proof.Machine

/-! ### What every standalone primitive shares -/

/-- Writing RESULT sets ERR to 0 and leaves the other registers (10_state.md R31). -/
theorem writeResult_frame (r : Word) (s : State) :
    (writeResult r s).err = 0#4 ∧ (writeResult r s).phase = s.phase ∧ (writeResult r s).sticky = s.sticky ∧
      SameArgs s (writeResult r s) ∧ SameDigest s (writeResult r s) :=
  ⟨writeResult_err r s, writeResult_phase r s, writeResult_sticky r s, ⟨writeResult_arg0 r s, writeResult_arg1 r s⟩,
    writeResult_sameDigest r s⟩

/-- Every OPCODE of format N fails RESERVED_IMM when IMM24 is not zero (30_encoding.md R85). -/
theorem reservedImmFails_of_formatN {op : BitVec 8}
    (isFormatN : op.toNat = 0x01 ∨ op.toNat = 0x03 ∨ (0x10 ≤ op.toNat ∧ op.toNat ≤ 0x13)) : ReservedImmFails op := by
  rintro v s rfl himm
  obtain ⟨-, reserved, -⟩ := illegalAndReservedEncodingsFail v s
  exact reserved isFormatN fun h0 => himm (BitVec.eq_of_toNat_eq h0)

/-! ### The rotation amount -/

/-- `ARG1[4:0]` is the Euclidean remainder of every integer that ARG1 holds in two's complement (R110). -/
theorem rotationAmount_of_ofInt {s : State} {n : Int} (h : s.arg1 = BitVec.ofInt 32 n) :
    (rotationAmount s : Int) = n % 32 := by
  rw [rotationAmount_eq, h, BitVec.toNat_ofInt]
  omega

theorem rotationAmount_lt (s : State) : rotationAmount s < 32 := (s.arg1.extractLsb' 0 5).isLt

/-! ### The commands -/

/-- Settles O10: RESULT is the left rotation by ARG1[4:0], whose bits are known; the rest is the common frame. -/
theorem rotlResultAndFrame : Obligations.RotlResultAndFrame := by
  refine ⟨fun s => ⟨_, rfl, fun j hj => ?bits, writeResult_frame _ s⟩, decode_encode (i := .rotl) rfl,
    reservedImmFails_of_formatN (by decide)⟩
  have amount_lt := rotationAmount_lt s
  have index : (((j : Int) - rotationAmount s) % 32).toNat = (j + 32 - rotationAmount s) % 32 := by omega
  exact (getLsbD_rotl s.arg0 _ hj).trans (congrArg s.arg0.getLsbD index)

/-- Settles O11: RESULT is the right rotation by ARG1[4:0], whose bits are known; the rest is the common frame. -/
theorem rotrResultAndFrame : Obligations.RotrResultAndFrame := by
  refine ⟨fun s => ⟨_, rfl, fun j hj => ?bits, writeResult_frame _ s⟩, decode_encode (i := .rotr) rfl,
    reservedImmFails_of_formatN (by decide)⟩
  have index : (((j : Int) + rotationAmount s) % 32).toNat = (j + rotationAmount s) % 32 := by omega
  exact (getLsbD_rotr s.arg0 _ hj).trans (congrArg s.arg0.getLsbD index)

/-- Settles O12: RESULT is `add32`, the sum of O9; the rest is the common frame. -/
theorem addResultAndFrame : Obligations.AddResultAndFrame := by
  obtain ⟨-, add32_toNat⟩ := rotationBitsAndAddition
  exact ⟨fun s => ⟨_, rfl, add32_toNat s.arg0 s.arg1, writeResult_frame _ s⟩, decode_encode (i := .add) rfl,
    reservedImmFails_of_formatN (by decide)⟩

/-- Settles O14: ARG1[4:0] and the integer agree modulo 32, so the rotations by them agree. -/
theorem rotationAmountIsAnyInteger : Obligations.RotationAmountIsAnyInteger := by
  intro s n holds
  have same_amount : (rotationAmount s : Int) % 32 = n % 32 := by
    rw [rotationAmount_of_ofInt holds, Int.emod_emod]
  exact ⟨⟨_, rfl, rotl_congr _ same_amount⟩, ⟨_, rfl, rotr_congr _ same_amount⟩⟩

end Sys2Proof.Machine
end

section
/-! PROOFS. Surrogate pairs, the UTF-8 table as arithmetic, and reading a character back off its bytes (41_word_encoder.md
R116 to R118, R127): O21, O22, O28. -/

namespace Sys2Proof.Machine

/-! ### Scalar values -/

/-- The test of R117 as arithmetic. -/
theorem isScalar_iff {cp : Word} :
    isScalar cp = true ↔ cp.toNat ≤ 0x10FFFF ∧ ¬ (0xD800 ≤ cp.toNat ∧ cp.toNat ≤ 0xDFFF) := by
  simp only [isScalar, Bool.and_eq_true, Bool.not_eq_true', Bool.and_eq_false_iff, decide_eq_true_eq,
    decide_eq_false_iff_not]
  omega

/-- Settles O28: the sum stays below 2^32, so it is exact, and it lies from 0x10000 to 0x10FFFF. -/
theorem surrogatePairIsScalar : Obligations.SurrogatePairIsScalar := by
  intro hi lo hhi hhi' hlo hlo'
  have high_ten : (hi - 0xD800#32).toNat = hi.toNat - 0xD800 := by bv_omega
  have low_ten : (lo - 0xDC00#32).toNat = lo.toNat - 0xDC00 := by bv_omega
  have combined : (combineSurrogates hi lo).toNat = 0x10000 + (hi.toNat - 0xD800) * 2 ^ 10 + (lo.toNat - 0xDC00) := by
    simp only [combineSurrogates, BitVec.toNat_add, BitVec.toNat_shiftLeft, Nat.shiftLeft_eq, high_ten, low_ten,
      BitVec.toNat_ofNat]
    omega
  exact ⟨combined, isScalar_iff.mpr (by omega)⟩

/-! ### The rows of the table -/

/-- Where the marker leaves the field's bits free, ORing the field is adding it. -/
theorem utf8Byte_toNat {marker : Byte} (cp : Word) (lo : Nat) {len : Nat} (fits : len ≤ 8)
    (free : 2 ^ len ∣ marker.toNat) :
    (utf8Byte marker cp lo len).toNat = marker.toNat + cp.toNat / 2 ^ lo % 2 ^ len := by
  have field_lt : cp.toNat / 2 ^ lo % 2 ^ len < 2 ^ len := Nat.mod_lt _ (Nat.two_pow_pos len)
  have field_byte : cp.toNat / 2 ^ lo % 2 ^ len < 2 ^ 8 := field_lt.trans_le (Nat.pow_le_pow_right (by decide) fits)
  obtain ⟨k, hk⟩ := free
  rw [utf8Byte, BitVec.toNat_or, BitVec.toNat_setWidth, BitVec.extractLsb'_toNat, Nat.shiftRight_eq_div_pow,
    Nat.mod_eq_of_lt field_byte, hk, Nat.two_pow_add_eq_or_of_lt field_lt]

/-- U+0000 to U+007F (R116). -/
theorem utf8_toNat_one {cp : Word} (h : cp.toNat ≤ 0x7F) : (utf8 cp).map BitVec.toNat = [cp.toNat] := by
  simp [utf8, h, utf8Byte_toNat, Nat.mod_eq_of_lt (Nat.lt_succ_of_le h)]

/-- U+0080 to U+07FF (R116). -/
theorem utf8_toNat_two {cp : Word} (lower : 0x80 ≤ cp.toNat) (upper : cp.toNat ≤ 0x7FF) :
    (utf8 cp).map BitVec.toNat = [0xC0 + cp.toNat / 2 ^ 6, 0x80 + cp.toNat % 2 ^ 6] := by
  have lead_fits : cp.toNat / 2 ^ 6 < 2 ^ 5 := by omega
  simpa [utf8, show ¬ cp.toNat ≤ 0x7F by omega, upper, utf8Byte_toNat] using lead_fits

/-- U+0800 to U+FFFF, the surrogates by the model's choice (R116, log entry 13). -/
theorem utf8_toNat_three {cp : Word} (lower : 0x800 ≤ cp.toNat) (upper : cp.toNat ≤ 0xFFFF) :
    (utf8 cp).map BitVec.toNat =
      [0xE0 + cp.toNat / 2 ^ 12, 0x80 + cp.toNat / 2 ^ 6 % 2 ^ 6, 0x80 + cp.toNat % 2 ^ 6] := by
  have lead_fits : cp.toNat / 2 ^ 12 < 2 ^ 4 := by omega
  simpa [utf8, show ¬ cp.toNat ≤ 0x7F by omega, show ¬ cp.toNat ≤ 0x7FF by omega, upper, utf8Byte_toNat] using lead_fits

/-- U+10000 to U+10FFFF (R116). -/
theorem utf8_toNat_four {cp : Word} (lower : 0x10000 ≤ cp.toNat) (upper : cp.toNat ≤ 0x10FFFF) :
    (utf8 cp).map BitVec.toNat =
      [0xF0 + cp.toNat / 2 ^ 18, 0x80 + cp.toNat / 2 ^ 12 % 2 ^ 6, 0x80 + cp.toNat / 2 ^ 6 % 2 ^ 6,
        0x80 + cp.toNat % 2 ^ 6] := by
  have lead_fits : cp.toNat / 2 ^ 18 < 2 ^ 3 := by omega
  simpa [utf8, show ¬ cp.toNat ≤ 0x7F by omega, show ¬ cp.toNat ≤ 0x7FF by omega, show ¬ cp.toNat ≤ 0xFFFF by omega,
    utf8Byte_toNat] using lead_fits

/-- Settles O21: the scalar test, then the table row by row. -/
theorem utf8Table : Obligations.Utf8Table := fun _ =>
  ⟨isScalar_iff, utf8_toNat_one, utf8_toNat_two, utf8_toNat_three, utf8_toNat_four⟩

/-! ### Reading a character back -/

/-- Reads one character off the values of a byte string: the lead byte tells the row of R116, and so how many bytes
follow. The answer is the code point and the bytes behind it. -/
def readChar (bs : List Nat) : Nat × List Nat :=
  let lead := bs.getD 0 0
  let tail (k : Nat) := bs.getD k 0 - 0x80
  if lead < 0x80 then (lead, bs.drop 1)
  else if lead < 0xE0 then ((lead - 0xC0) * 2 ^ 6 + tail 1, bs.drop 2)
  else if lead < 0xF0 then ((lead - 0xE0) * 2 ^ 12 + tail 1 * 2 ^ 6 + tail 2, bs.drop 3)
  else ((lead - 0xF0) * 2 ^ 18 + tail 1 * 2 ^ 12 + tail 2 * 2 ^ 6 + tail 3, bs.drop 4)

/-- The bytes of a character read back as it, whatever follows them: each row has lead bytes of its own. -/
theorem readChar_utf8_append {cp : Word} (scalar : isScalar cp = true) (x : List Byte) :
    readChar ((utf8 cp ++ x).map BitVec.toNat) = (cp.toNat, x.map BitVec.toNat) := by
  obtain ⟨in_range, -⟩ := isScalar_iff.mp scalar
  rw [List.map_append]
  have row : cp.toNat ≤ 0x7F ∨ (0x80 ≤ cp.toNat ∧ cp.toNat ≤ 0x7FF) ∨ (0x800 ≤ cp.toNat ∧ cp.toNat ≤ 0xFFFF) ∨
      0x10000 ≤ cp.toNat := by omega
  obtain one | ⟨lower, upper⟩ | ⟨lower, upper⟩ | lower := row
  · rw [utf8_toNat_one one]
    simp [readChar, show cp.toNat < 0x80 by omega]
  · rw [utf8_toNat_two lower upper]
    simp only [readChar, List.cons_append, List.nil_append, List.getD_cons_zero, List.getD_cons_succ]
    rw [if_neg (by omega), if_pos (by omega)]
    exact Prod.ext (by omega) rfl
  · rw [utf8_toNat_three lower upper]
    simp only [readChar, List.cons_append, List.nil_append, List.getD_cons_zero, List.getD_cons_succ]
    rw [if_neg (by omega), if_neg (by omega), if_pos (by omega)]
    exact Prod.ext (by omega) rfl
  · rw [utf8_toNat_four lower in_range]
    simp only [readChar, List.cons_append, List.nil_append, List.getD_cons_zero, List.getD_cons_succ]
    rw [if_neg (by omega), if_neg (by omega), if_neg (by omega)]
    exact Prod.ext (by omega) rfl

/-- Settles O22: reading the first character off the two equal strings gives the same code point and the same rest. -/
theorem utf8IsPrefixCode : Obligations.Utf8IsPrefixCode := by
  intro c d x y hc hd same
  have read : (c.toNat, x.map BitVec.toNat) = (d.toNat, y.map BitVec.toNat) := by
    rw [← readChar_utf8_append hc, ← readChar_utf8_append hd, same]
  obtain ⟨same_char, same_rest⟩ := Prod.mk.inj read
  exact ⟨BitVec.eq_of_toNat_eq same_char, List.map_injective_iff.mpr (fun _ _ => BitVec.eq_of_toNat_eq) same_rest⟩

end Sys2Proof.Machine
end

section
/-! PROOFS. push_byte and flush_encoder on the pending bytes (41_word_encoder.md R121, R124): O23, O26. -/

namespace Sys2Proof.Machine

/-! ### ENC_BUF and its bytes -/

@[simp] theorem pendingBytes_length (s : State) : (pendingBytes s).length = s.encCnt.val := by simp [pendingBytes]

theorem pendingBytes_of_encCnt_zero {s : State} (h : s.encCnt = 0) : pendingBytes s = [] := by simp [pendingBytes, h]

/-- ENC_BUF is its three bytes, the first at [23:16] (10_state.md R35). -/
theorem encBuf_eq_bytes (v : BitVec 24) : v = v.extractLsb' 16 8 ++ v.extractLsb' 8 8 ++ v.extractLsb' 0 8 := by
  rw [BitVec.extractLsb'_append_extractLsb'_eq_extractLsb' (by decide), BitVec.extractLsb'_append_extractLsb']

/-- Three pending bytes and one more are the word of ENC_BUF and that byte (R120, R121). -/
theorem packBytes_pendingBytes_append {s : State} (h : s.encCnt.val = 3) (b : Byte) :
    packBytes (pendingBytes s ++ [b]) = [s.encBuf ++ b] := by
  conv_rhs => rw [encBuf_eq_bytes s.encBuf]
  simp [pendingBytes, h, List.range_succ, packBytes]

/-- Under item 1 of R42 the word of ENC_BUF and a zero byte is the pending bytes padded with zero bytes (R120, R124). -/
theorem packBytes_pendingBytes {s : State} (pending : 0 < s.encCnt.val) (padded : EncPadding s) :
    packBytes (pendingBytes s) = [s.encBuf ++ 0#8] := by
  have counts : s.encCnt.val = 1 ∨ s.encCnt.val = 2 ∨ s.encCnt.val = 3 := by omega
  conv_rhs => rw [encBuf_eq_bytes s.encBuf]
  obtain one | two | three := counts
  · have second : s.encBuf.extractLsb' 8 8 = 0#8 := padded 1 one.le
    have third : s.encBuf.extractLsb' 0 8 = 0#8 := padded 2 (one.trans_le (by decide))
    simp [pendingBytes, one, List.range_succ, packBytes, second, third]
  · have third : s.encBuf.extractLsb' 0 8 = 0#8 := padded 2 two.le
    simp [pendingBytes, two, List.range_succ, packBytes, third]
  · simp [pendingBytes, three, List.range_succ, packBytes]

/-! ### push_byte -/

/-- With room in the word, push_byte counts the byte (R121). -/
theorem encCnt_pushByte_of_lt {s : State} (b : Byte) (h : s.encCnt.val < 3) :
    (pushByte b s).encCnt.val = s.encCnt.val + 1 := by
  rw [pushByte_of_lt b h]
  exact Fin.val_add_one_of_lt' (by omega)

/-- With room in the word, push_byte sets the byte's place and keeps the other bytes (R121). -/
theorem extractLsb'_pushByte_of_lt {s : State} (b : Byte) (h : s.encCnt.val < 3) (k : Fin 3) :
    (pushByte b s).encBuf.extractLsb' (16 - 8 * k.val) 8 =
      if k.val = s.encCnt.val then b else s.encBuf.extractLsb' (16 - 8 * k.val) 8 := by
  rw [pushByte_of_lt b h, extractLsb'_putEncByte s.encBuf ⟨s.encCnt.val, h⟩ k b]
  simp only [Fin.ext_iff]

/-- Settles O23: the byte's place in ENC_BUF and the count, or the completed word with its two parts. -/
theorem pushByteFillsOrAbsorbs : Obligations.PushByteFillsOrAbsorbs := by
  intro b s
  refine ⟨fun room => ⟨extractLsb'_pushByte_of_lt b room, encCnt_pushByte_of_lt b room, ?frame⟩, fun full =>
    ⟨s.encBuf ++ b, BitVec.extractLsb'_append_eq_left, BitVec.extractLsb'_append_eq_right, pushByte_of_full b full⟩⟩
  rw [pushByte_of_lt b room]

/-- With room in the word, the byte joins the pending ones. -/
theorem pendingBytes_pushByte_of_lt {s : State} (b : Byte) (h : s.encCnt.val < 3) :
    pendingBytes (pushByte b s) = pendingBytes s ++ [b] := by
  have kept : ∀ k < s.encCnt.val,
      (pushByte b s).encBuf.extractLsb' (16 - 8 * k) 8 = s.encBuf.extractLsb' (16 - 8 * k) 8 := fun k hk =>
    (extractLsb'_pushByte_of_lt b h ⟨k, by omega⟩).trans (if_neg hk.ne)
  have new : (pushByte b s).encBuf.extractLsb' (16 - 8 * s.encCnt.val) 8 = b :=
    (extractLsb'_pushByte_of_lt b h ⟨s.encCnt.val, h⟩).trans (if_pos rfl)
  rw [pendingBytes, encCnt_pushByte_of_lt b h, List.range_succ, List.map_append, List.map_singleton, new, pendingBytes]
  exact congrArg (· ++ [b]) (List.map_congr_left fun k hk => kept k (List.mem_range.mp hk))

/-- With room in the word, only the encoder changes: without it the states are the same. -/
theorem clearEnc_pushByte_of_lt {s : State} (b : Byte) (h : s.encCnt.val < 3) :
    clearEnc (pushByte b s) = clearEnc s := by
  rw [pushByte_of_lt b h]
  rfl

/-! ### Pushing several bytes -/

/-- The registers of the fold are the same: STATE, POS, POSM31, LAST_WORD and LAST_XF. -/
structure SameFold (s t : State) : Prop where
  state : t.state = s.state
  pos : t.pos = s.pos
  posm31 : t.posm31 = s.posm31
  lastWord : t.lastWord = s.lastWord
  lastXf : t.lastXf = s.lastXf

/-- States that differ in the encoder only have the same fold. -/
theorem SameFold.of_clearEnc_eq {s t : State} (h : clearEnc t = clearEnc s) : SameFold s t where
  state := (congrArg State.state h :)
  pos := (congrArg State.pos h :)
  posm31 := (congrArg State.posm31 h :)
  lastWord := (congrArg State.lastWord h :)
  lastXf := (congrArg State.lastXf h :)

/-- Fewer than four bytes in all stay pending, and nothing else changes. -/
theorem pushBytes_of_lt {s : State} {bs : List Byte} (h : s.encCnt.val + bs.length < 4) :
    pendingBytes (pushBytes bs s) = pendingBytes s ++ bs ∧ clearEnc (pushBytes bs s) = clearEnc s := by
  induction bs generalizing s with
  | nil => simp
  | cons b bs ih =>
    rw [List.length_cons] at h
    have room : s.encCnt.val < 3 := by omega
    obtain ⟨pending, frame⟩ := ih (s := pushByte b s) (by rw [encCnt_pushByte_of_lt b room]; omega)
    constructor
    · rw [pushBytes_cons, pending, pendingBytes_pushByte_of_lt b room, List.append_assoc, List.singleton_append]
    · rw [pushBytes_cons, frame, clearEnc_pushByte_of_lt b room]

/-- Bytes that make four in all are absorbed as one word: the fourth finds three pending. -/
theorem pushBytes_of_eq {s : State} {bs : List Byte} (h : s.encCnt.val + bs.length = 4) :
    ∃ w, packBytes (pendingBytes s ++ bs) = [w] ∧ pushBytes bs s = absorbWord w (clearEnc s) := by
  have nonempty : bs ≠ [] := by
    rintro rfl
    exact s.encCnt.isLt.ne h
  obtain ⟨init, last, rfl⟩ := (List.eq_nil_or_concat' bs).resolve_left nonempty
  rw [List.length_append, List.length_singleton] at h
  obtain ⟨pending, frame⟩ := pushBytes_of_lt (s := s) (bs := init) (by omega)
  have full : (pushBytes init s).encCnt.val = 3 := by
    rw [← pendingBytes_length, pending, List.length_append, pendingBytes_length]
    omega
  refine ⟨(pushBytes init s).encBuf ++ last, ?_, ?_⟩
  · rw [← List.append_assoc, ← pending, packBytes_pendingBytes_append full]
  · rw [pushBytes_append, pushBytes_cons, pushBytes_nil, pushByte_of_full last full, frame]

/-! ### flush_encoder -/

/-- Settles O26: the word is ENC_BUF and a zero byte, and under the invariants ENC_BUF is padded with zeros itself. -/
theorem flushPadsThePendingBytes : Obligations.FlushPadsThePendingBytes := fun s =>
  ⟨flushEncoder_of_zero, fun pending =>
    ⟨s.encBuf ++ 0#8, BitVec.extractLsb'_append_eq_left, BitVec.extractLsb'_append_eq_right,
      flushEncoder_of_pos pending, fun inv => packBytes_pendingBytes pending inv.encPadding⟩⟩

end Sys2Proof.Machine
end

section
/-! PROOFS. The command CHAR (41_word_encoder.md R122, R123): O24, O25. -/

namespace Sys2Proof.Machine

/-- Settles O24: the three arms of CHAR, and the encoding of its operand. -/
theorem charEncodesOneCharacter : Obligations.CharEncodesOneCharacter := by
  intro cp s
  refine ⟨fun hp scalar => ⟨_, exec_char_of_absorb_of_scalar hp scalar, rfl, ?frame⟩,
    fun hp => exec_of_not_absorb (.inr ⟨cp, rfl⟩) hp, exec_char_of_absorb_of_not_scalar,
    fun fits => decode_encode (i := .char cp) (decide_eq_true fits)⟩
  exact ⟨by simp, by simpa using hp, by simp, ⟨by simp, by simp⟩, by simp⟩

/-- Settles O25: below four bytes all stay pending; otherwise the bytes split where the word is full, and what is left of
the character finds the encoder empty. -/
theorem charCompletesAtMostOneWord : Obligations.CharCompletesAtMostOneWord := by
  intro cp s hp scalar
  refine ⟨_, exec_char_of_absorb_of_scalar hp scalar, fun fewer => ?fewer, fun enough => ?enough⟩
  case fewer =>
    rw [List.length_append, pendingBytes_length] at fewer
    obtain ⟨pending, frame⟩ := pushBytes_of_lt (s := succeed s) fewer
    obtain ⟨state, pos, posm31, lastWord, lastXf⟩ := SameFold.of_clearEnc_eq frame
    exact ⟨pending, state, pos, posm31, lastWord, lastXf⟩
  case enough =>
    have short : (utf8 cp).length ≤ 4 := (utf8_length cp).2
    rw [List.length_append, pendingBytes_length] at enough
    obtain ⟨front, back, split, full⟩ :
        ∃ front back, utf8 cp = front ++ back ∧ s.encCnt.val + front.length = 4 :=
      ⟨_, _, (List.take_append_drop (4 - s.encCnt.val) _).symm, by rw [List.length_take]; omega⟩
    obtain ⟨w, word, absorbed⟩ := pushBytes_of_eq (s := succeed s) full
    obtain ⟨pending, frame⟩ := pushBytes_of_lt (s := absorbWord w (clearEnc (succeed s))) (bs := back) <| by
      rw [split, List.length_append] at short
      have held : s.encCnt.val < 4 := s.encCnt.isLt
      simp only [absorbWord_encCnt, clearEnc_encCnt, Fin.val_zero]
      omega
    obtain ⟨state, pos, posm31, lastWord, lastXf⟩ := SameFold.of_clearEnc_eq frame
    have bytes : pendingBytes s ++ utf8 cp = (pendingBytes s ++ front) ++ back := by rw [split, List.append_assoc]
    have four : (pendingBytes s ++ front).length = 4 := by rw [List.length_append, pendingBytes_length, full]
    rw [split, pushBytes_append, absorbed, ← List.append_assoc, List.take_left' four, List.drop_left' four]
    exact ⟨w, word, pending, state, pos.trans (absorbWord_pos ..), posm31, lastWord, lastXf⟩

end Sys2Proof.Machine
end

section
/-! PROOFS. Packing bytes into words, and the strings that share their words (41_word_encoder.md R119, R120, R126, R127):
O27. -/

namespace Sys2Proof.Machine

/-! ### Packing -/

/-- Bytes that fill their words are packed apart from what follows them. -/
theorem packBytes_append {xs : List Byte} (aligned : xs.length % 4 = 0) (ys : List Byte) :
    packBytes (xs ++ ys) = packBytes xs ++ packBytes ys := by
  induction xs using packBytes.induct with
  | case1 b0 b1 b2 b3 rest ih =>
    have rest_aligned : rest.length % 4 = 0 := (Nat.add_mod_right _ 4).symm.trans aligned
    simp [packBytes, ih rest_aligned]
  | case2 | case3 | case4 => simp at aligned
  | case5 => rfl

/-- The words of `n` bytes are `n / 4` rounded up (R120). -/
theorem packBytes_length (bs : List Byte) : (packBytes bs).length = (bs.length + 3) / 4 := by
  induction bs using packBytes.induct with
  | case1 b0 b1 b2 b3 rest ih =>
    rw [packBytes, List.length_cons, ih]
    simp only [List.length_cons]
    omega
  | case2 | case3 | case4 | case5 => simp [packBytes]

/-- A zero byte that fits in the last word is the padding it already has (R126). -/
theorem packBytes_append_zero {bs : List Byte} (room : bs.length % 4 ≠ 0) : packBytes (bs ++ [0#8]) = packBytes bs := by
  induction bs using packBytes.induct with
  | case1 b0 b1 b2 b3 rest ih =>
    have rest_room : rest.length % 4 ≠ 0 := fun h => room ((Nat.add_mod_right _ 4).trans h)
    simp [packBytes, ih rest_room]
  | case2 | case3 | case4 => rfl
  | case5 => simp at room

/-- The number of zero bytes that fill the last word (R120). -/
def paddingLength (n : Nat) : Nat := (4 - n % 4) % 4

/-- The padding is shorter than a word. -/
theorem paddingLength_le (n : Nat) : paddingLength n ≤ 3 := by
  unfold paddingLength
  omega

/-- The bytes of a word are the four it is made of (R120). -/
theorem wordBytes_append (b0 b1 b2 b3 : Byte) : wordBytes (b0 ++ b1 ++ b2 ++ b3) = [b0, b1, b2, b3] := by
  have first : (b0 ++ b1 ++ b2 ++ b3).extractLsb' 24 8 = b0 := by
    rw [BitVec.extractLsb'_append_eq_of_le (by decide), BitVec.extractLsb'_append_eq_of_le (by decide)]
    exact BitVec.extractLsb'_append_eq_left
  have second : (b0 ++ b1 ++ b2 ++ b3).extractLsb' 16 8 = b1 := by
    rw [BitVec.extractLsb'_append_eq_of_le (by decide), BitVec.extractLsb'_append_eq_of_le (by decide)]
    exact BitVec.extractLsb'_append_eq_right
  have third : (b0 ++ b1 ++ b2 ++ b3).extractLsb' 8 8 = b2 := by
    rw [BitVec.extractLsb'_append_eq_of_le (by decide)]
    exact BitVec.extractLsb'_append_eq_right
  have fourth : (b0 ++ b1 ++ b2 ++ b3).extractLsb' 0 8 = b3 := BitVec.extractLsb'_append_eq_right
  exact congrArg₂ List.cons first (congrArg₂ List.cons second (congrArg₂ List.cons third (congrArg (fun b => [b]) fourth)))

/-- The bytes of the words are the bytes packed, padded with zeros. -/
theorem flatMap_wordBytes_packBytes (bs : List Byte) :
    (packBytes bs).flatMap wordBytes = bs ++ List.replicate (paddingLength bs.length) 0#8 := by
  induction bs using packBytes.induct with
  | case1 b0 b1 b2 b3 rest ih =>
    have same_padding : paddingLength (rest.length + 4) = paddingLength rest.length := by simp [paddingLength]
    simp [packBytes, wordBytes_append, ih, same_padding]
  | case2 | case3 | case4 => simp [packBytes, wordBytes_append, paddingLength, List.replicate]
  | case5 => rfl

/-! ### The bytes of a string -/

@[simp] theorem utf8String_nil : utf8String [] = [] := rfl

@[simp] theorem utf8String_cons (c : Word) (cs : List Word) : utf8String (c :: cs) = utf8 c ++ utf8String cs := rfl

theorem utf8String_append (cs ds : List Word) : utf8String (cs ++ ds) = utf8String cs ++ utf8String ds :=
  List.flatMap_append

/-- U+0000 is one zero byte. -/
theorem utf8_zero : utf8 0#32 = [0#8] := by decide

theorem utf8String_replicate_zero (k : Nat) : utf8String (List.replicate k 0#32) = List.replicate k 0#8 := by
  induction k with
  | zero => rfl
  | succ k ih => rw [List.replicate_succ, utf8String_cons, ih, utf8_zero, List.singleton_append, List.replicate_succ]

/-- The bytes determine a string of scalar values: the first character is read back off them, and no character is empty (R127). -/
theorem utf8String_inj {cs ds : List Word} (hcs : ∀ c ∈ cs, isScalar c = true) (hds : ∀ d ∈ ds, isScalar d = true)
    (same : utf8String cs = utf8String ds) : cs = ds := by
  have not_empty (c : Word) (rest : List Byte) : utf8 c ++ rest ≠ [] := fun h => by
    obtain ⟨one_byte, -⟩ := utf8_length c
    simp [List.append_eq_nil_iff.mp h] at one_byte
  induction cs generalizing ds with
  | nil =>
    cases ds with
    | nil => rfl
    | cons d ds => exact absurd same.symm (not_empty d _)
  | cons c cs ih =>
    cases ds with
    | nil => exact absurd same (not_empty c _)
    | cons d ds =>
      rw [List.forall_mem_cons] at hcs hds
      obtain ⟨rfl, same_rest⟩ := utf8IsPrefixCode c d _ _ hcs.1 hds.1 same
      rw [ih hcs.2 hds.2 same_rest]

/-! ### Strings with the same words -/

/-- Where the shorter padding belongs to the longer string, the difference is U+0000 characters. -/
theorem eq_append_replicate_of_padded_eq {cs ds : List Word} {p q : Nat} (hcs : ∀ c ∈ cs, isScalar c = true)
    (hds : ∀ d ∈ ds, isScalar d = true) (hpq : p ≤ q)
    (same : utf8String cs ++ List.replicate p 0#8 = utf8String ds ++ List.replicate q 0#8) :
    cs = ds ++ List.replicate (q - p) 0#32 := by
  have scalar : ∀ d ∈ ds ++ List.replicate (q - p) 0#32, isScalar d = true := by
    intro d hd
    obtain hd | hd := List.mem_append.mp hd
    · exact hds d hd
    · rw [List.eq_of_mem_replicate hd]
      decide
  refine utf8String_inj hcs scalar ?_
  rw [utf8String_append, utf8String_replicate_zero]
  apply List.append_cancel_right (bs := List.replicate p 0#8)
  rw [same, List.append_assoc, List.replicate_append_replicate, Nat.sub_add_cancel hpq]

/-- Settles O27: equal words are equal padded byte strings, which read back as the same characters up to U+0000; and a zero
byte that fits is padding. -/
theorem encoderCollidesOnTrailingNulOnly : Obligations.EncoderCollidesOnTrailingNulOnly := by
  refine ⟨fun cs ds hcs hds same_words => ?collision, fun cs room => ?trailing⟩
  case collision =>
    have same := congrArg (List.flatMap wordBytes) same_words
    rw [s2w, s2w, flatMap_wordBytes_packBytes, flatMap_wordBytes_packBytes] at same
    have p_le := paddingLength_le (utf8String cs).length
    have q_le := paddingLength_le (utf8String ds).length
    obtain hle | hle := Nat.le_total (paddingLength (utf8String cs).length) (paddingLength (utf8String ds).length)
    · exact ⟨_, by omega, .inl (eq_append_replicate_of_padded_eq hcs hds hle same)⟩
    · exact ⟨_, by omega, .inr (eq_append_replicate_of_padded_eq hds hcs hle same.symm)⟩
  case trailing =>
    rw [s2w, utf8String_append, utf8String_cons, utf8_zero]
    exact packBytes_append_zero room

end Sys2Proof.Machine
end

section
/-! PROOFS. Streaming: the words folded so far and the bytes pending, character by character (41_word_encoder.md R125,
43_state_folder.md R158, R159): O51. -/

namespace Sys2Proof.Machine

/-! ### A word absorbed is a fold step -/

/-- A round's keys depend on the index modulo 2^32 only (42_round_transform.md R143). -/
theorem roundKeys_mod (idx r : Nat) : roundKeys (idx % 2 ^ 32) r = roundKeys idx r := by
  have product_mod (k : Nat) : BitVec.ofNat 32 (idx % 2 ^ 32 * k) = BitVec.ofNat 32 (idx * k) := by
    apply BitVec.eq_of_toNat_eq
    rw [BitVec.toNat_ofNat, BitVec.toNat_ofNat, Nat.mod_mul_mod]
  simp only [roundKeys, BitVec.ofNat_add, product_mod]

/-- The transform depends on the index modulo 2^32 only (42_round_transform.md R143). -/
theorem transform_mod (w : Word) (idx : Nat) : transform w (idx % 2 ^ 32) = transform w idx := by
  simp only [transform, mixRound, roundKeys_mod]

/-- absorb_word is the source's step at the true position, which POS and POSM31 count (R153, R159). -/
theorem absorbWord_state {s : State} {i : Nat} (hpos : s.pos = BitVec.ofNat 32 i) (hposm31 : s.posm31.val = i % 31)
    (w : Word) : (absorbWord w s).state = foldStep i w s.state := by
  have same_xf : transform w s.pos.toNat = transform w i := by rw [hpos, BitVec.toNat_ofNat, transform_mod]
  have same_slot : slotOf s.pos = Fin.ofNat 8 i := Fin.ext <| by
    rw [slotOf_val, hpos, BitVec.toNat_ofNat, Fin.val_ofNat]
    omega
  have same_neighbor : neighborOf (Fin.ofNat 8 i) = Fin.ofNat 8 (i % 8 + 1) := Fin.ext <| by
    rw [neighborOf_val, Fin.val_ofNat, Fin.val_ofNat]
  have same_rotation : (foldRotation s : Int) = i % 31 + 1 := by
    rw [foldRotation, hposm31]
    rfl
  simp only [absorbWord, same_xf, same_slot, same_neighbor, same_rotation]
  rfl

/-! ### The words folded so far -/

/-- One word more at the end is one step more at the end. -/
theorem foldFrom_append_singleton (i : Nat) (ws : List Word) (w : Word) (st : Vector Word 8) :
    foldFrom i (ws ++ [w]) st = foldStep (i + ws.length) w (foldFrom i ws st) := by
  induction ws generalizing i st with
  | nil => rfl
  | cons v ws ih =>
    rw [List.cons_append, foldFrom, ih, foldFrom, List.length_cons, Nat.add_right_comm, Nat.add_assoc i]

/-- Since INIT the words `ws` have been absorbed, in this order (10_state.md R42 item 3, R36). -/
structure Folded (ws : List Word) (s : State) : Prop where
  state : s.state = foldFrom 0 ws initState
  pos : s.pos = BitVec.ofNat 32 ws.length
  posm31 : s.posm31.val = ws.length % 31
  last : ∀ w, ws.getLast? = some w → s.lastWord = w ∧ s.lastXf = transform w (ws.length - 1)

theorem Folded.startDigest (s : State) : Folded [] (startDigest s) := ⟨rfl, rfl, rfl, by simp⟩

/-- The encoder does not show in the fold. -/
theorem Folded.of_sameFold {ws : List Word} {s t : State} (h : Folded ws s) (same : SameFold s t) : Folded ws t where
  state := same.state.trans h.state
  pos := same.pos.trans h.pos
  posm31 := (congrArg Fin.val same.posm31).trans h.posm31
  last w hw := ⟨same.lastWord.trans (h.last w hw).1, same.lastXf.trans (h.last w hw).2⟩

/-- absorb_word folds one word more (43_state_folder.md R153). -/
theorem Folded.absorbWord {ws : List Word} {s : State} (h : Folded ws s) (w : Word) :
    Folded (ws ++ [w]) (absorbWord w s) where
  state := by rw [absorbWord_state h.pos h.posm31, h.state, foldFrom_append_singleton, Nat.zero_add]
  pos := by rw [absorbWord_pos, h.pos, List.length_append, List.length_singleton, BitVec.ofNat_add]
  posm31 := by
    rw [absorbWord_posm31, nextPosm31, Fin.val_add, h.posm31, List.length_append, List.length_singleton]
    exact Nat.mod_add_mod ..
  last v hv := by
    obtain rfl : w = v := by simpa using hv
    refine ⟨absorbWord_lastWord w s, ?_⟩
    rw [absorbWord_lastXf, h.pos, BitVec.toNat_ofNat, transform_mod, List.length_append, List.length_singleton,
      Nat.add_sub_cancel]

/-! ### The bytes streamed so far -/

/-- Since INIT the bytes `bs` have been pushed: their complete words are folded and the rest is pending (R125). -/
def Streamed (bs : List Byte) (s : State) : Prop :=
  ∃ whole, bs = whole ++ pendingBytes s ∧ whole.length % 4 = 0 ∧ Folded (packBytes whole) s

theorem streamed_startDigest (s : State) : Streamed [] (startDigest s) :=
  ⟨[], by rw [pendingBytes_of_encCnt_zero (startDigest_encCnt s), List.nil_append], rfl, .startDigest s⟩

/-- push_byte streams one byte more: it stays pending, or completes the word of the pending ones (R121). -/
theorem Streamed.pushByte {bs : List Byte} {s : State} (h : Streamed bs s) (b : Byte) :
    Streamed (bs ++ [b]) (pushByte b s) := by
  obtain ⟨whole, rfl, aligned, folded⟩ := h
  by_cases room : s.encCnt.val < 3
  · refine ⟨whole, ?_, aligned, folded.of_sameFold (.of_clearEnc_eq (clearEnc_pushByte_of_lt b room))⟩
    rw [pendingBytes_pushByte_of_lt b room, List.append_assoc]
  · have full : s.encCnt.val = 3 := by omega
    have empty : pendingBytes (absorbWord (s.encBuf ++ b) (clearEnc s)) = [] := pendingBytes_of_encCnt_zero rfl
    rw [pushByte_of_full b full]
    refine ⟨whole ++ (pendingBytes s ++ [b]), ?_, ?_, ?_⟩
    · rw [empty, List.append_nil, List.append_assoc]
    · simp only [List.length_append, pendingBytes_length, full, List.length_singleton]
      omega
    · rw [packBytes_append aligned, packBytes_pendingBytes_append full]
      exact (folded.of_sameFold (t := clearEnc s) ⟨rfl, rfl, rfl, rfl, rfl⟩).absorbWord _

theorem Streamed.pushBytes {bs : List Byte} {s : State} (h : Streamed bs s) (cs : List Byte) :
    Streamed (bs ++ cs) (pushBytes cs s) := by
  induction cs generalizing bs s with
  | nil => rwa [List.append_nil]
  | cons c cs ih => simpa using ih (h.pushByte c)

/-- The pending bytes are fewer than a word, so the folded ones are the whole words of `bs`. -/
theorem Streamed.split {bs : List Byte} {s : State} (h : Streamed bs s) :
    Folded (packBytes (bs.take (4 * (bs.length / 4)))) s ∧ pendingBytes s = bs.drop (4 * (bs.length / 4)) := by
  obtain ⟨whole, rfl, aligned, folded⟩ := h
  have whole_length : whole.length = 4 * ((whole ++ pendingBytes s).length / 4) := by
    have held : s.encCnt.val < 4 := s.encCnt.isLt
    rw [List.length_append, pendingBytes_length]
    omega
  rw [List.take_left' whole_length, List.drop_left' whole_length]
  exact ⟨folded, rfl⟩

/-! ### CHAR for each character -/

/-- In ABSORB with ERR 0, the CHARs of a string of scalar values all complete and push its bytes in order (R122). -/
theorem runCommands_chars {cs : List Word} {s : State} (scalar : ∀ c ∈ cs, isScalar c = true) (hp : s.phase = .absorb)
    (he : s.err = 0#4) : runCommands (cs.map .char) s = .next (pushBytes (utf8String cs) s) := by
  induction cs generalizing s with
  | nil => rfl
  | cons c cs ih =>
    rw [List.forall_mem_cons] at scalar
    have unchanged : succeed s = s := by rw [succeed_eq, ← he]
    have first : exec (.char c) s = .next (pushBytes (utf8 c) s) := by
      rw [exec_char_of_absorb_of_scalar hp scalar.1, unchanged]
    rw [List.map_cons, runCommands, first, utf8String_cons, pushBytes_append]
    exact ih scalar.2 (by simpa using hp) (by simpa using he)

/-- Settles O51: INIT starts with nothing streamed, and the CHARs stream the bytes of the string. -/
theorem streamedCharactersFoldInOrder : Obligations.StreamedCharactersFoldInOrder := by
  intro cs s scalar
  have run : runCommands (.init :: cs.map .char) s = .next (pushBytes (utf8String cs) (startDigest (succeed s))) :=
    runCommands_chars scalar rfl rfl
  have streamed : Streamed (utf8String cs) (pushBytes (utf8String cs) (startDigest (succeed s))) :=
    (streamed_startDigest (succeed s)).pushBytes (utf8String cs)
  obtain ⟨⟨state, pos, posm31, last⟩, pending⟩ := streamed.split
  have count : (packBytes ((utf8String cs).take (4 * ((utf8String cs).length / 4)))).length =
      (utf8String cs).length / 4 := by
    rw [packBytes_length, List.length_take]
    omega
  rw [count] at pos posm31 last
  exact ⟨_, run, state, pos, posm31, pending, last, by simp, by simp, by simp, ⟨by simp, by simp⟩, by simp⟩

end Sys2Proof.Machine
end

section
/-! PROOFS. The round transform and the command XFORM (42_round_transform.md R136 to R143): O15, O16, O17, O18. -/

namespace Sys2Proof.Machine

/-! ### The twelve rounds -/

theorem leftShift_lt (r : Nat) : leftShift r < 32 := by
  rw [leftShift]
  omega

/-- Step 4 is the library's rotation by the shift itself (R137). -/
theorem rotl_leftShift (x : Word) (r : Nat) : rotl x (leftShift r) = x.rotateLeft (leftShift r) := by
  have reduced : ((leftShift r : Int) % 32).toNat = leftShift r := Nat.mod_eq_of_lt (leftShift_lt r)
  rw [rotl_eq_rotateLeft, reduced]

/-- Step 7 is the library's rotation by the shift itself: the shift is never 0, so `32 - leftShift` is below 32
(R137). -/
theorem rotr_sub_leftShift (x : Word) (r : Nat) :
    rotr x (32 - (leftShift r : Int)) = x.rotateRight (32 - leftShift r) := by
  have reduced : ((32 - (leftShift r : Int)) % 32).toNat = 32 - leftShift r := by
    rw [leftShift]
    omega
  rw [rotr_eq_rotateRight, reduced]

/-- Steps 3 to 7 of a round on the library's rotations and the words' own addition (R137). -/
theorem mixRound_eq_library (idx r : Nat) (w : Word) :
    mixRound idx r w =
      (((w ^^^ (roundKeys idx r).keyA).rotateLeft (leftShift r) + (roundKeys idx r).keyB) ^^^
        ~~~(roundKeys idx r).keyA).rotateRight (32 - leftShift r) := by
  simp only [mixRound, rotl_leftShift, add32_eq_add, rotr_sub_leftShift]

/-- The round keys with the constants' printed values; `0x409AC756` is `MAGIC_SEED ^ 0xDEADBEEF` (R136). -/
theorem roundKeys_eq_printed (idx r : Nat) :
    roundKeys idx r =
      { keyA := BitVec.ofNat 32 (0x9E3779B9 + (idx * 0x517CC1B7 + r * 0x6ED9EBA1))
        keyB := BitVec.ofNat 32 (0x409AC756 + (r * 0x8F1BBCDC + idx * 0xA4D1C2EF)) } := rfl

/-- Settles O15: each round is the library's form of steps 3 to 7, and its keys are R136's with the constants' values. -/
theorem transformIsTwelveKeyedRounds : Obligations.TransformIsTwelveKeyedRounds := by
  intro w idx
  simp only [transform, Config.rounds, mixRound_eq_library, roundKeys_eq_printed, leftShift]

/-! ### The inverse -/

/-- The net form of a round: the shift is `r + 1`, and rotating right by `32 - (r + 1)` rotates left by `r + 1`
(R138). -/
theorem mixRound_eq_net {r : Nat} (hr : r < 12) (idx : Nat) (w : Word) :
    mixRound idx r w =
      rotl ((rotl (w ^^^ (roundKeys idx r).keyA) (r + 1) + (roundKeys idx r).keyB) ^^^ ~~~(roundKeys idx r).keyA)
        (r + 1) := by
  have shift : (leftShift r : Int) = r + 1 := by
    rw [leftShift]
    omega
  have right_is_left (x : Word) : rotr x (32 - ((r : Int) + 1)) = rotl x (r + 1) := by
    rw [rotr_eq_rotl_neg]
    exact rotl_congr x (by omega)
  simp only [mixRound, shift, add32_eq_add, right_is_left]

/-- A round undone after it was done: each step of R142 meets the step of R138 it undoes. -/
theorem unmixRound_mixRound {r : Nat} (hr : r < 12) (idx : Nat) (w : Word) :
    unmixRound idx r (mixRound idx r w) = w := by
  rw [mixRound_eq_net hr, unmixRound, rotr_rotl, BitVec.xor_assoc, BitVec.xor_self, BitVec.xor_zero,
    BitVec.add_sub_cancel, rotr_rotl, BitVec.xor_assoc, BitVec.xor_self, BitVec.xor_zero]

/-- A round done after it was undone: each step of R138 meets the step of R142 it undoes. -/
theorem mixRound_unmixRound {r : Nat} (hr : r < 12) (idx : Nat) (w : Word) :
    mixRound idx r (unmixRound idx r w) = w := by
  rw [mixRound_eq_net hr, unmixRound, BitVec.xor_assoc, BitVec.xor_self, BitVec.xor_zero, rotl_rotr,
    BitVec.sub_add_cancel, BitVec.xor_assoc, BitVec.xor_self, BitVec.xor_zero, rotl_rotr]

/-- Steps undone one by one from the last to the first are undone together. -/
theorem foldl_reverse_foldl {α β : Type} {f g : α → β → α} {l : List β} (undoes : ∀ b ∈ l, ∀ a, g (f a b) b = a)
    (a : α) : l.reverse.foldl g (l.foldl f a) = a := by
  induction l generalizing a with
  | nil => rfl
  | cons b l ih =>
    rw [List.forall_mem_cons] at undoes
    obtain ⟨undoes_first, undoes_rest⟩ := undoes
    rw [List.foldl_cons, List.reverse_cons, List.foldl_append, ih undoes_rest]
    exact undoes_first a

theorem transformInverse_transform (w : Word) (idx : Nat) : transformInverse (transform w idx) idx = w :=
  foldl_reverse_foldl (fun _ hr => unmixRound_mixRound (List.mem_range.mp hr) idx) w

/-- The rounds in order are the reverse of the rounds from 11 down to 0. -/
theorem transform_transformInverse (w : Word) (idx : Nat) : transform (transformInverse w idx) idx = w := by
  have undone := foldl_reverse_foldl (f := fun w r => unmixRound idx r w) (g := fun w r => mixRound idx r w)
    (l := (List.range Config.rounds).reverse)
    (fun _ hr => mixRound_unmixRound (List.mem_range.mp (List.mem_reverse.mp hr)) idx) w
  rwa [List.reverse_reverse] at undone

/-- Settles O17: every round undoes and is undone by its inverse, and so do the twelve in opposite orders. -/
theorem transformIsInvertible : Obligations.TransformIsInvertible := fun w idx =>
  ⟨transformInverse_transform w idx, transform_transformInverse w idx⟩

/-! ### The width of the index, and XFORM -/

/-- Settles O18: every round's keys see the index modulo 2^32. -/
theorem transformIndexModulo : Obligations.TransformIndexModulo := fun w idx => (transform_mod w idx).symm

/-- Settles O16: RESULT is `T(ARG0, ARG1)`; the rest is the common frame of the standalone primitives. -/
theorem xformResultAndFrame : Obligations.XformResultAndFrame :=
  ⟨fun s => ⟨_, rfl, writeResult_result _ s, writeResult_frame _ s⟩, decode_encode (i := .xform) rfl,
    reservedImmFails_of_formatN (by decide)⟩

end Sys2Proof.Machine
end

section
/-! PROOFS. The state folder: absorb_word slot by slot, and the command INIT (43_state_folder.md R151 to R154): O19,
O20. -/

namespace Sys2Proof.Machine

/-! ### absorb_word -/

/-- The fold rotates by `POSM31 + 1`, which is below 32, so it is the library's rotation by it (R153). -/
theorem rotl_foldRotation (x : Word) (s : State) : rotl x (foldRotation s) = x.rotateLeft (s.posm31.val + 1) := by
  have in_range := foldRotation_range s
  have reduced : ((foldRotation s : Int) % 32).toNat = foldRotation s := by omega
  rw [rotl_eq_rotateLeft, reduced, foldRotation]

/-- The slots after absorb_word (R153): the second write reads the neighbor's old value, since the first went to another
slot (R154). -/
theorem slot_absorbWord (w : Word) (s : State) (k : Fin 8) :
    (absorbWord w s).slot k =
      if k = slotOf s.pos then s.slot k ^^^ transform w s.pos.toNat
      else if k = neighborOf (slotOf s.pos) then
        s.slot k + (transform w s.pos.toNat).rotateLeft (s.posm31.val + 1)
      else s.slot k := by
  have writes : (absorbWord w s).slot k =
      ((s.setSlot (slotOf s.pos) (s.slot (slotOf s.pos) ^^^ transform w s.pos.toNat)).setSlot
        (neighborOf (slotOf s.pos))
        (s.slot (neighborOf (slotOf s.pos)) + (transform w s.pos.toNat).rotateLeft (s.posm31.val + 1))).slot k := by
    rw [← rotl_foldRotation, ← add32_eq_add, ← slot_setSlot_ne s _ (neighborOf_ne (slotOf s.pos))]
    rfl
  rw [writes, slot_setSlot, slot_setSlot]
  split_ifs with at_neighbor at_slot at_slot
  · exact absurd (at_neighbor.symm.trans at_slot) (neighborOf_ne _)
  · rw [at_neighbor]
  · rw [at_slot]
  · rfl

theorem eq_slotOf_iff {k : Fin 8} {pos : Word} : k = slotOf pos ↔ k.val = pos.toNat % 8 := by
  rw [Fin.ext_iff, slotOf_val]

theorem eq_neighborOf_slotOf_iff {k : Fin 8} {pos : Word} :
    k = neighborOf (slotOf pos) ↔ k.val = (pos.toNat % 8 + 1) % 8 := by
  rw [Fin.ext_iff, neighborOf_val, slotOf_val]

/-- Settles O20: the slots as numbers, the counters as sums reduced once; the rest is the frame of absorb_word. -/
theorem absorbWordFoldsIntoTwoSlots : Obligations.AbsorbWordFoldsIntoTwoSlots := by
  intro w s
  have frame := absorbWord_frame w s
  refine ⟨fun k => ?slots, absorbWord_lastWord w s, absorbWord_lastXf w s, ?pos, Fin.val_add s.posm31 1,
    absorbWord_encBuf w s, absorbWord_encCnt w s, ⟨frame.arg0, frame.arg1⟩, frame.result, frame.phase, frame.err,
    frame.sticky⟩
  case slots => simp only [slot_absorbWord, eq_slotOf_iff, eq_neighborOf_slotOf_iff]
  case pos => rw [absorbWord_pos, BitVec.toNat_add, BitVec.toNat_ofNat]

/-! ### INIT -/

/-- The slots right after INIT (R151, R152). -/
theorem slot_startDigest (s : State) (k : Fin 8) : (startDigest s).slot k = initSlot k.val := by
  rw [State.slot, startDigest_state, initState, Vector.get_eq_getElem, Vector.getElem_ofFn]

/-- INIT_STATE as exact arithmetic with the printed constants (R151). -/
theorem initSlot_toNat (k : Nat) : (initSlot k).toNat = (0x9E3779B9 + k * 0x27D4EB2F) % 2 ^ 32 :=
  BitVec.toNat_ofNat ..

/-- Settles O19: the slots are INIT_STATE's, every other register is a field of `startDigest` or `succeed`. -/
theorem initStartsDigest : Obligations.InitStartsDigest := by
  refine ⟨fun s => ⟨startDigest (succeed s), rfl, fun k => ?slots, rfl, rfl, rfl, rfl, rfl, rfl, rfl, rfl, rfl,
    ⟨rfl, rfl⟩, rfl⟩, decode_encode (i := .init) rfl, reservedImmFails_of_formatN (by decide)⟩
  rw [slot_startDigest, initSlot_toNat]

end Sys2Proof.Machine
end

section
/-! PROOFS. The command FINAL, and the digest that INIT, the characters and FINAL leave (44_finalizer_hex.md R171 to
R178): O29, O30, O52. -/

namespace Sys2Proof.Machine

/-! ### FINAL on any state -/

/-- Clearing ERR does not show in the flush (R124). -/
@[simp] theorem flushEncoder_succeed (s : State) : flushEncoder (succeed s) = succeed (flushEncoder s) := by
  by_cases pending : 0 < s.encCnt.val
  · rw [flushEncoder_of_pos pending, flushEncoder_of_pos (s := succeed s) pending]
    rfl
  · have empty : s.encCnt.val = 0 := by omega
    rw [flushEncoder_of_zero empty, flushEncoder_of_zero (s := succeed s) empty]

/-- Slot `k` after FINAL is the transform of the flushed slot at index `k + POS`, a sum modulo 2^32 (R171). -/
theorem slot_finishDigest (s : State) (k : Fin 8) :
    (finishDigest s).slot k =
      transform ((flushEncoder s).slot k) ((k.val + (flushEncoder s).pos.toNat) % 2 ^ 32) := by
  have index : (BitVec.ofNat 32 k.val + (flushEncoder s).pos).toNat =
      (k.val + (flushEncoder s).pos.toNat) % 2 ^ 32 := by
    rw [BitVec.toNat_add, BitVec.toNat_ofNat, Nat.mod_add_mod]
  have finalized : (finishDigest s).slot k = (finalize (flushEncoder (succeed s))).slot k := rfl
  rw [finalized, finalize_slot, flushEncoder_succeed, add32_eq_add, succeed_pos, index]
  rfl

/-- A padded ENC_BUF that holds no byte is zero (10_state.md R42 item 1). -/
theorem encBuf_eq_zero {s : State} (padded : EncPadding s) (empty : s.encCnt = 0) : s.encBuf = 0#24 := by
  have zero (k : Fin 3) : s.encBuf.extractLsb' (16 - 8 * k.val) 8 = 0#8 := padded k (by simp [empty])
  have first : s.encBuf.extractLsb' 16 8 = 0#8 := zero 0
  have second : s.encBuf.extractLsb' 8 8 = 0#8 := zero 1
  have third : s.encBuf.extractLsb' 0 8 = 0#8 := zero 2
  rw [encBuf_eq_bytes s.encBuf, first, second, third]
  rfl

/-- Settles O29: in ABSORB the slots are the finalised ones and the other registers those of the flush; the two failures
are those of every FINAL outside ABSORB and of every format-N command. -/
theorem finalFinishesDigest : Obligations.FinalFinishesDigest := by
  refine ⟨fun s hp => ⟨finishDigest s, exec_final_of_absorb hp, slot_finishDigest s, by simp, by simp, by simp, by simp,
    by simp, fun inv => ?encBuf, by simp, by simp, by simp, ⟨by simp, by simp⟩, by simp⟩,
    fun s hp => exec_of_not_absorb (.inl rfl) hp, decode_encode (i := .final) rfl,
    reservedImmFails_of_formatN (by decide)⟩
  exact encBuf_eq_zero (inv_finishDigest inv).encPadding (finishDigest_encCnt s)

/-! ### The finalised fold is the source's digest -/

/-- The flush folds the padded last word, so all words of the bytes are folded (R124, R159). -/
theorem Streamed.flushEncoder {bs : List Byte} {s : State} (h : Streamed bs s) (padded : EncPadding s) :
    Folded (packBytes bs) (flushEncoder s) := by
  obtain ⟨whole, rfl, aligned, folded⟩ := h
  rw [packBytes_append aligned]
  by_cases pending : 0 < s.encCnt.val
  · rw [packBytes_pendingBytes pending padded, flushEncoder_of_pos pending]
    exact (folded.of_sameFold (t := clearEnc s) ⟨rfl, rfl, rfl, rfl, rfl⟩).absorbWord _
  · have empty : s.encCnt.val = 0 := by omega
    rw [pendingBytes_of_encCnt_zero (Fin.ext empty), flushEncoder_of_zero empty, packBytes, List.append_nil]
    exact folded

theorem finalState_get (n : Nat) (st : Vector Word 8) (k : Fin 8) :
    (finalState n st).get k = transform (st.get k) (k.val + n) := by
  rw [finalState, Vector.get_eq_getElem, Vector.getElem_ofFn]

/-- FINAL finalises what the flush has folded at the true indices, which POS gives modulo 2^32 (R173, R176). -/
theorem state_finishDigest_of_folded {ws : List Word} {s : State} (h : Folded ws (flushEncoder s)) :
    (finishDigest s).state = finalState ws.length (foldFrom 0 ws initState) := by
  apply Vector.ext
  intro i hi
  have slot := slot_finishDigest s ⟨i, hi⟩
  rw [h.pos, BitVec.toNat_ofNat, State.slot, State.slot, h.state, Nat.add_mod_mod, transform_mod,
    ← finalState_get] at slot
  exact slot

/-- The state after INIT and the CHARs of a string, before FINAL. -/
def absorbed (cs : List Word) (s : State) : State := pushBytes (utf8String cs) (startDigest (succeed s))

theorem streamed_absorbed (cs : List Word) (s : State) : Streamed (utf8String cs) (absorbed cs s) :=
  (streamed_startDigest (succeed s)).pushBytes (utf8String cs)

/-- The flush of a string's bytes leaves its words folded: `S2W` cuts and pads as the encoder does (R120, R125). -/
theorem folded_flushEncoder_absorbed (cs : List Word) (s : State) : Folded (s2w cs) (flushEncoder (absorbed cs s)) :=
  (streamed_absorbed cs s).flushEncoder (EncPadding.pushBytes _ (encPadding_of_encBuf_zero rfl))

theorem state_finishDigest_absorbed (cs : List Word) (s : State) :
    (finishDigest (absorbed cs s)).state = digestState cs :=
  state_finishDigest_of_folded (folded_flushEncoder_absorbed cs s)

/-! ### The commands of a digest -/

/-- Commands that complete are followed by the rest of the list. -/
theorem runCommands_append {is js : List Instr} {s t : State} (h : runCommands is s = .next t) :
    runCommands (is ++ js) s = runCommands js t := by
  induction is generalizing s with
  | nil =>
    injection h with h
    rw [h, List.nil_append]
  | cons i is ih =>
    rw [runCommands] at h
    rw [List.cons_append, runCommands]
    split at h
    · exact ih h
    · cases h
    · cases h

/-- On scalar values INIT, the CHARs and FINAL all complete (R152, R122, R172). -/
theorem runCommands_digest {cs : List Word} (scalar : ∀ c ∈ cs, isScalar c = true) (s : State) :
    runCommands (.init :: digestCommands cs) s = .next (finishDigest (absorbed cs s)) := by
  have chars : runCommands (.init :: cs.map .char) s = .next (absorbed cs s) := runCommands_chars scalar rfl rfl
  have phase : (absorbed cs s).phase = .absorb := by simp [absorbed]
  rw [digestCommands, ← List.cons_append, runCommands_append chars, runCommands, exec_final_of_absorb phase]
  rfl

/-- Settles O52: the commands run to FINAL, the flush has folded the words of `S2W`, and FINAL finalises them to D. -/
theorem streamingComputesDigest : Obligations.StreamingComputesDigest := by
  intro cs s scalar
  have folded := folded_flushEncoder_absorbed cs s
  refine ⟨finishDigest (absorbed cs s), runCommands_digest scalar s, state_finishDigest_absorbed cs s, by simp,
    by simp [absorbed], by simp, packBytes_length (utf8String cs), ?pos, ?posm31, by simp,
    ⟨by simp [absorbed], by simp [absorbed]⟩, by simp [absorbed]⟩
  case pos => rw [finishDigest_pos, flushEncoder_succeed, succeed_pos, folded.pos]
  case posm31 => rw [finishDigest_posm31, flushEncoder_succeed, succeed_posm31, folded.posm31]

/-- The slots of INIT_STATE (R151). -/
theorem initState_get (k : Fin 8) : initState.get k = initSlot k.val := slot_startDigest State.reset k

/-- The fold of no words is INIT_STATE, so D of the empty string finalises the initial slots (R178). -/
theorem digestState_nil_get (k : Fin 8) : (digestState []).get k = transform (initSlot k.val) k.val := by
  rw [← initState_get]
  exact finalState_get 0 initState k

/-- Settles O30: the digest of the string without characters, whose slots are the initial ones finalised. -/
theorem emptyInputDigest : Obligations.EmptyInputDigest := by
  intro s
  have digest : (finishDigest (absorbed [] s)).state = digestState [] := state_finishDigest_absorbed [] s
  refine ⟨absorbed [] s, finishDigest (absorbed [] s), rfl, exec_final_of_absorb rfl, fun k => ?slots, rfl, rfl, rfl,
    rfl, digest⟩
  rw [State.slot, digest, digestState_nil_get]
  rfl

end Sys2Proof.Machine
end

section
/-! PROOFS. The slots of D that no word reaches (43_state_folder.md R156, 44_finalizer_hex.md R177): O54. -/

namespace Sys2Proof.Machine

/-- A fold step writes the slot of its position and the next one only (R154, R159). -/
theorem foldStep_get_of_ne {i : Nat} {k : Fin 8} (notSlot : k.val ≠ i % 8) (notNeighbor : k.val ≠ (i + 1) % 8)
    (w : Word) (st : Vector Word 8) : (foldStep i w st).get k = st.get k := by
  simp [foldStep, Vector.get_eq_getElem, Vector.getElem_set, notSlot.symm, notNeighbor.symm]

/-- Words at positions below `k - 1` do not reach slot `k` (R156). -/
theorem foldFrom_get_untouched {i : Nat} {ws : List Word} {k : Fin 8} (beyond : i + ws.length + 1 ≤ k.val)
    (st : Vector Word 8) : (foldFrom i ws st).get k = st.get k := by
  induction ws generalizing i st with
  | nil => rfl
  | cons w ws ih =>
    rw [List.length_cons] at beyond
    rw [foldFrom, ih (by omega), foldStep_get_of_ne (by omega) (by omega)]

/-- A slot no word reaches is the initial one, finalised (R177). -/
theorem digestState_get_untouched {cs : List Word} {k : Fin 8} (beyond : (s2w cs).length + 1 ≤ k.val) :
    (digestState cs).get k = transform (initSlot k.val) (k.val + (s2w cs).length) := by
  rw [digestState, finalState_get, foldFrom_get_untouched (by omega), initState_get]

/-- Settles O54: the slot's value names the word count only. -/
theorem untouchedSlotsDependOnCountOnly : Obligations.UntouchedSlotsDependOnCountOnly := by
  intro cs k beyond
  refine ⟨digestState_get_untouched beyond, fun ds same => ?_⟩
  rw [digestState_get_untouched (same ▸ beyond), digestState_get_untouched beyond, same]

end Sys2Proof.Machine
end

section
/-! PROOFS. In phase DONE the digest stays (44_finalizer_hex.md R179, R186): O47. -/

namespace Sys2Proof.Machine

/-- Outside ABSORB only INIT changes the digest in progress or PHASE: CHAR and FINAL fail there (30_encoding.md R87). -/
theorem CommandEffect.keeps_digest_of_ne_absorb {s t : State} {v : Word} (effect : CommandEffect s v t)
    (outside : s.phase ≠ .absorb) (notInit : v ≠ 0x00000001#32) : SameDigest s t ∧ t.phase = s.phase := by
  cases effect with
  | fails _ e _ => exact ⟨raiseError_sameDigest e s, rfl⟩
  | init => exact absurd rfl notInit
  | char _ _ _ inPhase => exact absurd inPhase outside
  | final inPhase => exact absurd inPhase outside
  | primitive _ r _ => exact ⟨writeResult_sameDigest r s, rfl⟩

/-- Outside ABSORB only INIT and reset change the digest in progress or PHASE. -/
theorem EventEffect.keeps_digest_of_ne_absorb {s t : State} {e : Event} (effect : EventEffect s e t)
    (outside : s.phase ≠ .absorb) (notReset : e ≠ .reset) (notInit : e ≠ wr 0x00 0x00000001#32) :
    SameDigest s t ∧ t.phase = s.phase := by
  cases effect with
  | reset => exact absurd rfl notReset
  | read | arg0 | arg1 => exact ⟨⟨rfl, rfl, rfl, rfl, rfl, rfl, rfl⟩, rfl⟩
  | ignored => exact ⟨.refl s, rfl⟩
  | command v t effect => exact effect.keeps_digest_of_ne_absorb outside fun h => notInit (congrArg (wr 0x00) h)

/-- Settles O47: DONE is a phase outside ABSORB, and the DIGEST registers show STATE only. -/
theorem doneKeepsDigest : Obligations.DoneKeepsDigest := by
  intro e s t hdone h notReset notInit
  have outside : s.phase ≠ .absorb := by simp [hdone]
  obtain ⟨digest, phase⟩ := (eventEffect_of_serveEvent h).keeps_digest_of_ne_absorb outside notReset notInit
  refine ⟨digest, phase.trans hdone, fun k => ?_⟩
  rw [hostRead_digest, hostRead_digest, digestWord_congr digest.state]

end Sys2Proof.Machine
end

section
/-! PROOFS. The hex renderer: the bytes of the DIGEST registers (44_finalizer_hex.md R182 to R185): O31, O32. -/

namespace Sys2Proof.Machine

/-! ### Digits -/

/-- The digit of a nibble is '0' to '9', then 'a' to 'f' (R182). -/
theorem hexc_toNat (d : BitVec 4) :
    (hexc d).toNat = if d.toNat ≤ 9 then 0x30 + d.toNat else 0x61 + (d.toNat - 10) := by
  revert d
  decide

/-- Nibble `j` of a word, counted from the most significant (R183). -/
def nibble (w : Word) (j : Nat) : BitVec 4 := w.extractLsb' (28 - 4 * j) 4

theorem hex8_eq_nibbles (w : Word) : hex8 w = (List.range 8).map fun j => hexc (nibble w j) := rfl

/-- A nibble of a 16-bit part of a word is a nibble of the word. -/
theorem extractLsb'_extractLsb'_16 (w : Word) (start : Nat) {lo : Nat} (within : lo + 4 ≤ 16) :
    (w.extractLsb' start 16).extractLsb' lo 4 = w.extractLsb' (start + lo) 4 := by
  ext i hi
  have inside : lo + i < 16 := by omega
  simp [inside, Nat.add_assoc]

/-! ### A DIGEST register -/

/-- The slot that DIGESTk shows one half of (R184). -/
def digestSlot (k : Fin 16) : Fin 8 := ⟨k.val / 2, by omega⟩

/-- The bytes of DIGESTk are the digits of the high half of its slot when `k` is even, of the low half when `k` is odd
(R184). -/
theorem wordBytes_digestWord (k : Fin 16) (s : State) :
    wordBytes (digestWord k s) =
      (List.range 4).map fun j => hexc (nibble (s.slot (digestSlot k)) (4 * (k.val % 2) + j)) := by
  rw [digestWord, wordBytes_append]
  obtain even | odd := Nat.mod_two_eq_zero_or_one k.val
  · simp [even, extractLsb'_extractLsb'_16, List.range_succ, nibble, digestSlot, Nat.shiftRight_eq_div_pow]
  · simp [odd, List.range_succ, nibble, digestSlot, Nat.shiftRight_eq_div_pow]

/-- Byte `j` of DIGESTk is the digit of its nibble (R184). -/
theorem extractLsb'_digestWord (k : Fin 16) (j : Fin 4) (s : State) :
    (digestWord k s).extractLsb' (24 - 8 * j.val) 8 =
      hexc (nibble (s.slot (digestSlot k)) (4 * (k.val % 2) + j.val)) := by
  have bytes : (List.range 4).map (fun j => (digestWord k s).extractLsb' (24 - 8 * j) 8) =
      (List.range 4).map fun j => hexc (nibble (s.slot (digestSlot k)) (4 * (k.val % 2) + j)) :=
    wordBytes_digestWord k s
  exact List.map_inj_left.mp bytes j.val (List.mem_range.mpr j.isLt)

/-- Settles O31: the byte is the digit of the nibble, and `hexc` is '0' to '9' and 'a' to 'f'. -/
theorem digestRegistersRenderState : Obligations.DigestRegistersRenderState := by
  intro s k j
  rw [hostRead_digest, extractLsb'_digestWord, hexc_toNat]
  rfl

/-! ### The digest string -/

/-- DIGEST(2k) and DIGEST(2k+1) together show slot `k` (R184). -/
theorem wordBytes_digest_pair (k : Fin 8) (s : State) :
    wordBytes (hostRead (0x60 + 4 * (2 * k.val)) s) ++ wordBytes (hostRead (0x60 + 4 * (2 * k.val + 1)) s) =
      hex8 (s.slot k) := by
  have high := wordBytes_digestWord ⟨2 * k.val, by omega⟩ s
  have low := wordBytes_digestWord ⟨2 * k.val + 1, by omega⟩ s
  rw [← hostRead_digest] at high low
  rw [high, low]
  have slot_high : digestSlot ⟨2 * k.val, by omega⟩ = k := Fin.ext (Nat.mul_div_cancel_left k.val (by decide))
  have slot_low : digestSlot ⟨2 * k.val + 1, by omega⟩ = k := Fin.ext (Nat.mul_add_div (by decide) k.val 1)
  simp [slot_high, slot_low, Nat.add_mod, hex8_eq_nibbles, List.range_succ]

/-- A list indexed by `2n` numbers, two at a time. -/
theorem flatMap_range_two_mul {α : Type} (f : Nat → List α) (n : Nat) :
    (List.range (2 * n)).flatMap f = (List.range n).flatMap fun k => f (2 * k) ++ f (2 * k + 1) := by
  induction n with
  | zero => rfl
  | succ n ih => simp [Nat.mul_succ, List.range_succ, ih]

/-- The digest string slot by slot (R185). -/
theorem hexString_eq_slots (s : State) : hexString s.state = (List.finRange 8).flatMap fun k => hex8 (s.slot k) := by
  have slots : s.state.toList = (List.finRange 8).map s.slot := by
    rw [← List.ofFn_eq_map, ← Vector.toList_ofFn]
    exact congrArg Vector.toList Vector.ofFn_getElem.symm
  rw [hexString, slots, List.flatMap_map]

/-- The digits are those of the lowercase alphabet (R182). -/
theorem hexc_range (d : BitVec 4) :
    (0x30 ≤ (hexc d).toNat ∧ (hexc d).toNat ≤ 0x39) ∨ (0x61 ≤ (hexc d).toNat ∧ (hexc d).toNat ≤ 0x66) := by
  have nibble_lt : d.toNat < 16 := d.isLt
  rw [hexc_toNat]
  split <;> omega

/-- Settles O32: the registers show the slots two by two, and each slot is eight digits. -/
theorem digestRegistersGiveHexString : Obligations.DigestRegistersGiveHexString := by
  intro s
  rw [hexString_eq_slots]
  refine ⟨?registers, ?length, fun c hc => ?alphabet⟩
  case registers =>
    rw [flatMap_range_two_mul _ 8, ← List.map_coe_finRange_eq_range, List.flatMap_map]
    exact List.flatMap_congr fun k _ => wordBytes_digest_pair k s
  case length => simp [List.length_flatMap, hex8]
  case alphabet =>
    obtain ⟨k, -, hk⟩ := List.mem_flatMap.mp hc
    obtain ⟨j, -, rfl⟩ := List.mem_map.mp hk
    exact hexc_range _

end Sys2Proof.Machine
end

section
/-! PROOFS. A digest whose STICKY stayed 0 was one of scalar values only (70_reset_and_hazards.md R230): O53. -/

namespace Sys2Proof.Machine

theorem encode_eq_init_iff {i : Instr} : encode i = 0x00000001#32 ↔ i = .init := by
  refine ⟨fun h => ?_, fun h => h ▸ rfl⟩
  cases i with
  | init => rfl
  | char cp =>
    have opcode := opcodeOf_encode_char cp
    rw [h] at opcode
    exact absurd opcode (by decide)
  | final | xform | rotl | rotr | add => exact absurd h (by decide)

/-- Only INIT clears STICKY (10_state.md R29). -/
theorem exec_keeps_sticky {i : Instr} {s t : State} (notInit : i ≠ .init) (h : exec i s = .next t)
    (hs : s.sticky = true) : t.sticky = true := by
  by_contra cleared
  exact notInit (encode_eq_init_iff.mp
    ((commandEffect_of_exec h).init_of_sticky_cleared hs (Bool.eq_false_of_not_eq_true cleared)))

/-- A list of commands that completes begins with a command that does. -/
theorem runCommands_cons_cases {i : Instr} {is : List Instr} {s t : State} (h : runCommands (i :: is) s = .next t) :
    ∃ u, exec i s = .next u ∧ runCommands is u = .next t := by
  rw [runCommands] at h
  split at h
  · next u hu => exact ⟨u, hu, h⟩
  · cases h
  · cases h

/-- STICKY stays set through a list of commands without INIT. -/
theorem runCommands_keeps_sticky {is : List Instr} {s t : State} (noInit : .init ∉ is)
    (h : runCommands is s = .next t) (hs : s.sticky = true) : t.sticky = true := by
  induction is generalizing s with
  | nil =>
    injection h with h
    exact h ▸ hs
  | cons i is ih =>
    obtain ⟨notInit, noInit⟩ := not_or.mp (mt List.mem_cons.mpr noInit)
    obtain ⟨u, first, others⟩ := runCommands_cons_cases h
    exact ih noInit others (exec_keeps_sticky (Ne.symm notInit) first hs)

theorem init_notMem_digestCommands (cs : List Word) : .init ∉ digestCommands cs := by simp [digestCommands]

/-- A CHAR that failed would have left STICKY set to the end of the digest, so every operand was a scalar value
(41_word_encoder.md R122, R230). -/
theorem isScalar_of_runCommands_digest {cs : List Word} {s t : State} (hp : s.phase = .absorb)
    (h : runCommands (digestCommands cs) s = .next t) (clean : t.sticky = false) : ∀ c ∈ cs, isScalar c = true := by
  induction cs generalizing s with
  | nil => exact List.forall_mem_nil _
  | cons c cs ih =>
    obtain ⟨u, first, others⟩ := runCommands_cons_cases h
    cases hs : isScalar c with
    | true =>
      obtain rfl : pushBytes (utf8 c) (succeed s) = u :=
        Host.Outcome.next.inj ((exec_char_of_absorb_of_scalar hp hs).symm.trans first)
      exact List.forall_mem_cons.mpr ⟨hs, ih (by simpa using hp) others⟩
    | false =>
      obtain rfl : raiseError .invalidChar s = u :=
        Host.Outcome.next.inj ((exec_char_of_absorb_of_not_scalar hp hs).symm.trans first)
      have failed := runCommands_keeps_sticky (init_notMem_digestCommands cs) others (raiseError_sticky _ s)
      simp [clean] at failed

/-- Settles O53: STICKY 0 makes every character a scalar value, and on those the commands leave D. -/
theorem validDigestHoldsD : Obligations.ValidDigestHoldsD := by
  rintro cs t ⟨-, clean, s, u, start, run⟩
  obtain rfl : startDigest (succeed s) = u := Host.Outcome.next.inj start
  have scalar := isScalar_of_runCommands_digest (startDigest_phase _) run clean
  obtain rfl : finishDigest (absorbed cs s) = t := Host.Outcome.next.inj ((runCommands_digest scalar s).symm.trans run)
  exact state_finishDigest_absorbed cs s

end Sys2Proof.Machine
end

section
/-! PROOFS. Runs of the machine on pending commands and reads, and the host procedure HASH (70_reset_and_hazards.md R224
to R226): O55. -/

namespace Sys2Proof.Machine

/-! ### Runs of the machine -/

theorem run_succ_of_step {M : Host.Core} {s t : M.State} (h : M.step s = .next t) (n : Nat) :
    M.run (n + 1) s = M.run n t := by
  rw [Host.Core.run, h]

/-- Steps that complete are followed by the rest of the run. -/
theorem run_add_of_run {M : Host.Core} {m : Nat} {s t : M.State} (h : M.run m s = .next t) (n : Nat) :
    M.run (m + n) s = M.run n t := by
  induction m generalizing s with
  | zero =>
    obtain rfl : s = t := Host.Outcome.next.inj h
    rw [Nat.zero_add]
  | succ m ih =>
    rw [Host.Core.run] at h
    split at h
    · next u first =>
      rw [Nat.succ_add, run_succ_of_step first]
      exact ih h
    · cases h
    · cases h

/-- A pending command that has an encoding is executed by the next step (30_encoding.md R89). -/
theorem step_of_pending_command {s : State} {i : Instr} {rest : List Event} (wf : i.wf = true)
    (h : s.pending = command i :: rest) : step s = exec i { s with pending := rest } := by
  rw [step_of_pending_wr_cmd h, executeCommand_of_decode_ok (decode_encode wf)]

/-- No list of commands reads or writes the host's side. -/
theorem runCommands_sameHost {is : List Instr} {s t : State} (h : runCommands is s = .next t) : SameHost s t := by
  induction is generalizing s with
  | nil =>
    obtain rfl : s = t := Host.Outcome.next.inj h
    exact ⟨rfl, rfl⟩
  | cons i is ih =>
    obtain ⟨u, first, others⟩ := runCommands_cons_cases h
    have kept : SameHost s u := (commandsIgnoreTheHostSide i s u [] [] first).1
    exact ⟨(ih others).pending.trans kept.pending, (ih others).readValues.trans kept.readValues⟩

/-- Pending commands run as a list of commands does: none of them sees what is pending behind it (log entry 1). -/
theorem run_of_pending_commands {is : List Instr} {s t : State} {rest : List Event} (wf : ∀ i ∈ is, i.wf = true)
    (hpending : s.pending = is.map command ++ rest) (h : runCommands is { s with pending := rest } = .next t) :
    Host.Core.run core is.length s = .next t := by
  induction is generalizing s with
  | nil =>
    obtain rfl : s.pending = rest := hpending
    exact h
  | cons i is ih =>
    obtain ⟨wf_first, wf_others⟩ := List.forall_mem_cons.mp wf
    obtain ⟨u, first, others⟩ := runCommands_cons_cases h
    obtain ⟨⟨pending, readValues⟩, ignores⟩ :=
      commandsIgnoreTheHostSide i _ u (is.map command ++ rest) s.readValues first
    have stepped := (step_of_pending_command wf_first hpending).trans ignores
    have same_state : { u with pending := rest, readValues := s.readValues } = u := by
      change u.pending = rest at pending
      change u.readValues = s.readValues at readValues
      rw [← pending, ← readValues]
    exact (run_succ_of_step (M := core) stepped _).trans
      (ih wf_others rfl ((congrArg (runCommands is) same_state).trans others))

/-- Pending reads inside the contract all record what their offsets read as, and change nothing else (20_memory.md
R66). -/
theorem run_of_pending_reads {offs : List Nat} {s : State} {rest : List Event}
    (contract : ∀ off ∈ offs, off % 4 = 0 ∧ off < 0x100) (hpending : s.pending = offs.map rd ++ rest) :
    Host.Core.run core offs.length s =
      .next { s with pending := rest, readValues := s.readValues ++ offs.map (hostRead · s) } := by
  induction offs generalizing s with
  | nil =>
    obtain rfl : s.pending = rest := hpending
    rw [List.map_nil, List.append_nil]
    rfl
  | cons off offs ih =>
    obtain ⟨⟨aligned, inSpace⟩, contract_others⟩ := List.forall_mem_cons.mp contract
    have stepped := (step_of_pending_cons hpending).trans (serveEvent_rd aligned inSpace _)
    refine (run_succ_of_step (M := core) stepped _).trans ((ih contract_others rfl).trans ?_)
    rw [List.map_cons, List.append_cons]
    rfl

/-! ### The accesses of HASH -/

/-- The offsets HASH reads: STATUS, then the DIGEST registers (R224). -/
def hashReads : List Nat := 0x04 :: (List.range 16).map fun k => 0x60 + 4 * k

theorem hashReads_inContract : ∀ off ∈ hashReads, off % 4 = 0 ∧ off < 0x100 := by decide

/-- HASH is the digest of `salt || U+0000 || password` followed by its reads (R224). -/
theorem hashProcedure_eq {password salt : List Word} (valid : hostValidate password salt = true) :
    hashProcedure password salt =
      (.init :: digestCommands (salt ++ [0#32] ++ password)).map command ++ hashReads.map rd := by
  simp [hashProcedure, valid, hashAccesses, digestCommands, str, rdDigest, hashReads, Function.comp_def]

theorem wf_char_of_isScalar {c : Word} (h : isScalar c = true) : (Instr.char c).wf = true := by
  have in_range : c.toNat ≤ 0x10FFFF := of_decide_eq_true (Bool.and_eq_true_iff.mp h).1
  exact decide_eq_true (by omega)

theorem wf_of_mem_digest {cs : List Word} (scalar : ∀ c ∈ cs, isScalar c = true) :
    ∀ i ∈ .init :: digestCommands cs, i.wf = true := by
  intro i hi
  obtain rfl | ⟨c, hc, rfl⟩ | rfl : i = .init ∨ (∃ c ∈ cs, .char c = i) ∨ i = .final := by
    simpa [digestCommands] using hi
  · rfl
  · exact wf_char_of_isScalar (scalar c hc)
  · rfl

/-- In phase DONE with no error STATUS is 0x20, and HASH's reads give the rendering of STATE (R224, 44_finalizer_hex.md
R185). -/
theorem digestRead_hashReads {s : State} (phase : s.phase = .done) (sticky : s.sticky = false) (err : s.err = 0#4) :
    digestRead (hashReads.map (hostRead · s)) = some (hexString s.state) := by
  have status : hostRead 0x04 s = 0x00000020#32 := by
    change statusWord s = _
    rw [statusWord, phase, sticky, err]
    rfl
  rw [hashReads, List.map_cons, digestRead, if_pos status, List.map_map, List.flatMap_map]
  exact congrArg some (digestRegistersGiveHexString s).1

/-- Settles O55: the commands of HASH leave the state that FINAL finished, and its reads show STATUS and D there. -/
theorem hashProcedureReadsHashPassword : Obligations.HashProcedureReadsHashPassword := by
  intro password salt s rest valid scalar_password scalar_salt hpending
  have scalar : ∀ c ∈ salt ++ [0#32] ++ password, isScalar c = true := by
    have scalar_separator : isScalar 0#32 = true := by decide
    simpa [or_imp, forall_and, scalar_separator] using ⟨scalar_salt, scalar_password⟩
  obtain ⟨t, commands, state, phase, sticky, err, -⟩ :=
    streamingComputesDigest _ { s with pending := hashReads.map rd ++ rest } scalar
  obtain ⟨pending, readValues⟩ := runCommands_sameHost commands
  rw [hashProcedure_eq valid, List.append_assoc] at hpending
  have run_commands := run_of_pending_commands (wf_of_mem_digest scalar) hpending commands
  have run_reads := run_of_pending_reads hashReads_inContract pending
  refine ⟨{ t with pending := rest, readValues := t.readValues ++ hashReads.map (hostRead · t) }, ?run, rfl,
    hashReads.map (hostRead · t), congrArg (· ++ _) readValues, ?digest⟩
  case run =>
    rw [hashProcedure_eq valid, List.length_append, List.length_map, List.length_map]
    exact (run_add_of_run run_commands _).trans run_reads
  case digest => rw [digestRead_hashReads phase sticky err, state, hashPassword]

end Sys2Proof.Machine
end
